-- ==== Sys2Proof/Word.lean ====
section
/-! DEFINITION. The widths the spec fixes (00_scope.md R7, R8, R9): a word is 32 bits, a byte is 8
bits, a write strobe is 4 bits. -/

namespace Sys2Proof

/-- A word (R9): 32 bits, unsigned. -/
abbrev Word := BitVec 32

/-- A byte (R9): 8 bits. -/
abbrev Byte := BitVec 8

/-- A write strobe (R8, R94): one bit for each byte lane. -/
abbrev Strobe := BitVec 4

end Sys2Proof
end

