-- ==== Sys2Proof/Config.lean ====
section
/-! DEFINITION. What an implementation fixes (the parameter `MSG_MEM_BYTES`, 00_scope.md R8) and the
free values (what the spec leaves open, 20_memory.md R79 and log entries 5 and 6). -/

namespace Sys2Proof

/-- The implementation parameter of R8, "the only open parameter": `MSG_MEM_BYTES`. A word, since the
host reads it at `MSG_CAP` (R39). -/
structure Config where
  msgMemBytes : Word
  deriving DecidableEq, Repr

/-- The number of bytes of `MEM`. -/
def Config.cap (c : Config) : Nat := c.msgMemBytes.toNat

/-- R8: "a multiple of 4, with 4 ≤ MSG_MEM_BYTES ≤ 0xFFFF_F000". -/
def Config.wf (c : Config) : Bool :=
  decide (c.cap % 4 = 0) && decide (4 ≤ c.cap) && decide (c.cap ≤ 0xFFFFF000)

/-- R8, D4: the default is 4096. -/
def Config.default : Config := { msgMemBytes := 0x1000 }

/-- FREE VALUE (R79; log 4): the byte that the n-th draw gives. Nothing constrains it. -/
opaque Config.freeByte : Nat → Byte

/-- FREE VALUE (log 5): the word that the n-th draw gives, where SCHED or ROUND has a `STEP` for
which the spec names no word. Nothing constrains it. -/
opaque Config.freeWord : Nat → Word

end Sys2Proof
end

