-- ==== Sys2Proof/Syntax.lean ====
section
/-! DEFINITION. Everything that carries an encoding (30_encoding.md): the bus transaction, the three
kinds of key, and the instructions, one constructor for each row of the opcode table. -/

namespace Sys2Proof

/-- A host bus transaction `(W, ADDR, WDATA, WSTRB)` (R94). -/
structure BusTx where
  write : Bool
  addr  : Word
  wdata : Word
  wstrb : Strobe
  deriving DecidableEq, Repr

/-- The three kinds of operation that carry an encoding (30_encoding.md, opening): the bus
transaction (R94), the command word (R90) and the micro-op key, which is `PHASE` (R96). -/
inductive Key where
  | bus (t : BusTx)
  | cmd (word : Word)
  | uop (phase : BitVec 3)
  deriving DecidableEq, Repr

/-- One constructor for each row of `spec/opcode_table.json`. A window row carries its word index
(`j`, `q`), the message rows the offset `o = ADDR - 0x1000` with bits [1:0] cleared, the reserved rows
the aligned address `a`; write rows carry `WDATA` (`d`) and `WSTRB` (`s`). A read row carries neither,
because they are ignored for reads (R94). Micro-ops have no operand: they take `STEP` from the state. -/
inductive Instr where
  | rdId
  | rdCmd
  | rdStatus
  | rdMsgLen
  | rdBlocks
  | rdNblocks
  | rdMsgCap
  | rdDigest (j : Fin 8)
  | rdHex (q : Fin 16)
  | rdDigestb (q : Fin 8)
  | rdMsg (o : Word)
  | rdRsv (a : Word)
  | wrId (d : Word) (s : Strobe)
  | wrCmd (d : Word) (s : Strobe)
  | wrStatus (d : Word) (s : Strobe)
  | wrMsgLen (d : Word) (s : Strobe)
  | wrBlocks (d : Word) (s : Strobe)
  | wrNblocks (d : Word) (s : Strobe)
  | wrMsgCap (d : Word) (s : Strobe)
  | wrDigest (j : Fin 8) (d : Word) (s : Strobe)
  | wrHex (q : Fin 16) (d : Word) (s : Strobe)
  | wrDigestb (q : Fin 8) (d : Word) (s : Strobe)
  | wrMsg (o : Word) (d : Word) (s : Strobe)
  | wrRsv (a : Word) (d : Word) (s : Strobe)
  | cmdNop
  | cmdStart
  | cmdClear
  | cmdIllegal (d : Word)
  | uopLoad
  | uopSched
  | uopCinit
  | uopRound
  | uopFeed
  | uopFinal
  deriving DecidableEq, Repr

/-- The row of the opcode table that a constructor stands for, by its mnemonic. -/
def Instr.mnemonic : Instr → String
  | .rdId => "RD_ID"
  | .rdCmd => "RD_CMD"
  | .rdStatus => "RD_STATUS"
  | .rdMsgLen => "RD_MSG_LEN"
  | .rdBlocks => "RD_BLOCKS"
  | .rdNblocks => "RD_NBLOCKS"
  | .rdMsgCap => "RD_MSG_CAP"
  | .rdDigest _ => "RD_DIGEST"
  | .rdHex _ => "RD_HEX"
  | .rdDigestb _ => "RD_DIGESTB"
  | .rdMsg _ => "RD_MSG"
  | .rdRsv _ => "RD_RSV"
  | .wrId _ _ => "WR_ID"
  | .wrCmd _ _ => "WR_CMD"
  | .wrStatus _ _ => "WR_STATUS"
  | .wrMsgLen _ _ => "WR_MSG_LEN"
  | .wrBlocks _ _ => "WR_BLOCKS"
  | .wrNblocks _ _ => "WR_NBLOCKS"
  | .wrMsgCap _ _ => "WR_MSG_CAP"
  | .wrDigest _ _ _ => "WR_DIGEST"
  | .wrHex _ _ _ => "WR_HEX"
  | .wrDigestb _ _ _ => "WR_DIGESTB"
  | .wrMsg _ _ _ => "WR_MSG"
  | .wrRsv _ _ _ => "WR_RSV"
  | .cmdNop => "CMD.NOP"
  | .cmdStart => "CMD.START"
  | .cmdClear => "CMD.CLEAR"
  | .cmdIllegal _ => "CMD.ILLEGAL"
  | .uopLoad => "UOP.LOAD"
  | .uopSched => "UOP.SCHED"
  | .uopCinit => "UOP.CINIT"
  | .uopRound => "UOP.ROUND"
  | .uopFeed => "UOP.FEED"
  | .uopFinal => "UOP.FINAL"

end Sys2Proof
end

