-- ==== Sys2Proof/WellFormed.lean ====
section
/-! DEFINITION. Which operands an instruction can have, for a given `MSG_MEM_BYTES`: the ranges of
20_memory.md R70 and the illegal words of 30_encoding.md R92. The window indexes are in range by their
types. -/

namespace Sys2Proof

/-- An aligned bus address lies in a reserved row of the address map (R70). -/
def Config.reserved (c : Config) (a : Nat) : Bool :=
  !(decide (a < 0x1C) || (decide (0x20 ≤ a) && decide (a < 0xA0))
    || (decide (0x1000 ≤ a) && decide (a < 0x1000 + c.cap)))

/-- An offset of an aligned word of the message window (R62, R63). -/
def Config.msgOffset (c : Config) (o : Nat) : Bool :=
  decide (o % 4 = 0) && decide (o < c.cap)

/-- The operands are ones that an encoding can carry. -/
def Instr.wellFormed (c : Config) : Instr → Bool
  | .rdMsg o => c.msgOffset o.toNat
  | .rdRsv a => decide (a.toNat % 4 = 0) && c.reserved a.toNat
  | .wrMsg o _ _ => c.msgOffset o.toNat
  | .wrRsv a _ _ => decide (a.toNat % 4 = 0) && c.reserved a.toNat
  | .cmdIllegal d => decide (3 ≤ d.toNat)
  | .rdId | .rdCmd | .rdStatus | .rdMsgLen | .rdBlocks | .rdNblocks | .rdMsgCap => true
  | .rdDigest _ | .rdHex _ | .rdDigestb _ => true
  | .wrId _ _ | .wrCmd _ _ | .wrStatus _ _ | .wrMsgLen _ _ => true
  | .wrBlocks _ _ | .wrNblocks _ _ | .wrMsgCap _ _ => true
  | .wrDigest _ _ _ | .wrHex _ _ _ | .wrDigestb _ _ _ => true
  | .cmdNop | .cmdStart | .cmdClear => true
  | .uopLoad | .uopSched | .uopCinit | .uopRound | .uopFeed | .uopFinal => true

end Sys2Proof
end

