-- ==== Sys2Proof/Decode.lean ====
section
/-! DEFINITION. The decoder, total on every key, and the encoder after it (30_encoding.md R90-R96,
40_host_interface.md R120, R121). -/

namespace Sys2Proof

/-- R64: the hardware ignores address bits [1:0]; a transaction acts on the word at the address with
those bits cleared. -/
def alignAddr (a : Word) : Word := a &&& 0xFFFFFFFC

/-- The range of the message window (R70). Stated on numbers: `0x1000 + MSG_MEM_BYTES` may be 2^32. -/
def Config.inWindow (c : Config) (a : Word) : Bool :=
  decide (0x1000 ≤ a.toNat) && decide (a.toNat < 0x1000 + c.cap)

/-- A read of the aligned address `a`: the case list of R121. -/
def decodeRead (c : Config) (a : Word) : Instr :=
  if a = 0x000 then .rdId
  else if a = 0x004 then .rdCmd
  else if a = 0x008 then .rdStatus
  else if a = 0x00C then .rdMsgLen
  else if a = 0x010 then .rdBlocks
  else if a = 0x014 then .rdNblocks
  else if a = 0x018 then .rdMsgCap
  else if 0x020 ≤ a ∧ a ≤ 0x03C then .rdDigest (Fin.ofNat 8 ((a.toNat - 0x020) / 4))
  else if 0x040 ≤ a ∧ a ≤ 0x07C then .rdHex (Fin.ofNat 16 ((a.toNat - 0x040) / 4))
  else if 0x080 ≤ a ∧ a ≤ 0x09C then .rdDigestb (Fin.ofNat 8 ((a.toNat - 0x080) / 4))
  else if c.inWindow a then .rdMsg (a - 0x1000)
  else .rdRsv a

/-- A write to the aligned address `a`: the case list of R120. -/
def decodeWrite (c : Config) (a d : Word) (s : Strobe) : Instr :=
  if a = 0x000 then .wrId d s
  else if a = 0x004 then .wrCmd d s
  else if a = 0x008 then .wrStatus d s
  else if a = 0x00C then .wrMsgLen d s
  else if a = 0x010 then .wrBlocks d s
  else if a = 0x014 then .wrNblocks d s
  else if a = 0x018 then .wrMsgCap d s
  else if 0x020 ≤ a ∧ a ≤ 0x03C then .wrDigest (Fin.ofNat 8 ((a.toNat - 0x020) / 4)) d s
  else if 0x040 ≤ a ∧ a ≤ 0x07C then .wrHex (Fin.ofNat 16 ((a.toNat - 0x040) / 4)) d s
  else if 0x080 ≤ a ∧ a ≤ 0x09C then .wrDigestb (Fin.ofNat 8 ((a.toNat - 0x080) / 4)) d s
  else if c.inWindow a then .wrMsg (a - 0x1000) d s
  else .wrRsv a d s

/-- Every transaction is exactly one BUS row (R95): no transaction is refused. -/
def decodeBus (c : Config) (t : BusTx) : Instr :=
  if t.write then decodeWrite c (alignAddr t.addr) t.wdata t.wstrb
  else decodeRead c (alignAddr t.addr)

/-- A command is selected by comparing the whole word; every other word is illegal (R91, R92). -/
def decodeCmd (d : Word) : Instr :=
  if d = 0x00000000 then .cmdNop
  else if d = 0x00000001 then .cmdStart
  else if d = 0x00000002 then .cmdClear
  else .cmdIllegal d

/-- The micro-op that `PHASE` selects (R96); codes 0 (IDLE) and 7 (DONE) select none. -/
def decodeUop (p : BitVec 3) : Option Instr :=
  if p = 1 then some .uopLoad
  else if p = 2 then some .uopSched
  else if p = 3 then some .uopCinit
  else if p = 4 then some .uopRound
  else if p = 5 then some .uopFeed
  else if p = 6 then some .uopFinal
  else none

/-- Why the decoder gives no instruction. `noMicroOp`: the `PHASE` code selects no micro-op, "and the
core has no step in them" (R96). Safe: the spec gives such a key no step. -/
inductive DecodeReject where
  | noMicroOp (phase : BitVec 3)
  deriving DecidableEq, Repr

/-- The decoder: total, and it rejects by name. -/
def decode (c : Config) : Key → Except DecodeReject Instr
  | .bus t => .ok (decodeBus c t)
  | .cmd d => .ok (decodeCmd d)
  | .uop p =>
    match decodeUop p with
    | some i => .ok i
    | none => .error (.noMicroOp p)

/-- A key from a row's bits, numbered as the opcode table numbers them (log 7). Fewer than 32 bits: a
UOP key, bits 2:0. 32 bits: a command word. More: a BUS row, `KEY` in bits 32:0 (so `W` is bit 32),
then, from the next whole byte, `WDATA` in bits 71:40 and `WSTRB` in bits 75:72. -/
def Key.ofTableWord (nbits w : Nat) : Key :=
  if nbits < 32 then .uop (BitVec.ofNat 3 w)
  else if nbits = 32 then .cmd (BitVec.ofNat 32 w)
  else .bus
    { write := w.testBit 32
      addr := BitVec.ofNat 32 w
      wdata := BitVec.ofNat 32 (w >>> 40)
      wstrb := BitVec.ofNat 4 (w >>> 72) }

/-- The instruction the decoder reads from a row's bits, for the default `MSG_MEM_BYTES` of the opcode
table (R95: its window rows are "exact only for the default"). -/
def decodeTableWord (nbits w : Nat) : Option Instr :=
  match decode Config.default (Key.ofTableWord nbits w) with
  | .ok i => some i
  | .error _ => none

/-- The read transaction of an address; `WDATA` and `WSTRB` are ignored for reads and written as 0. -/
def readTx (a : Word) : BusTx := { write := false, addr := a, wdata := 0, wstrb := 0 }

/-- The write transaction of an address, a data word and a strobe. -/
def writeTx (a d : Word) (s : Strobe) : BusTx := { write := true, addr := a, wdata := d, wstrb := s }

/-- The address of word `k` of a window that begins at `base` (R32: `base + 4k`). -/
def windowAddr (base k : Nat) : Word := BitVec.ofNat 32 (base + 4 * k)

/-- The encoder, written from the opcode table's rows and the map of R32. -/
def encode : Instr → Key
  | .rdId => .bus (readTx 0x000)
  | .rdCmd => .bus (readTx 0x004)
  | .rdStatus => .bus (readTx 0x008)
  | .rdMsgLen => .bus (readTx 0x00C)
  | .rdBlocks => .bus (readTx 0x010)
  | .rdNblocks => .bus (readTx 0x014)
  | .rdMsgCap => .bus (readTx 0x018)
  | .rdDigest j => .bus (readTx (windowAddr 0x020 j))
  | .rdHex q => .bus (readTx (windowAddr 0x040 q))
  | .rdDigestb q => .bus (readTx (windowAddr 0x080 q))
  | .rdMsg o => .bus (readTx (0x1000 + o))
  | .rdRsv a => .bus (readTx a)
  | .wrId d s => .bus (writeTx 0x000 d s)
  | .wrCmd d s => .bus (writeTx 0x004 d s)
  | .wrStatus d s => .bus (writeTx 0x008 d s)
  | .wrMsgLen d s => .bus (writeTx 0x00C d s)
  | .wrBlocks d s => .bus (writeTx 0x010 d s)
  | .wrNblocks d s => .bus (writeTx 0x014 d s)
  | .wrMsgCap d s => .bus (writeTx 0x018 d s)
  | .wrDigest j d s => .bus (writeTx (windowAddr 0x020 j) d s)
  | .wrHex q d s => .bus (writeTx (windowAddr 0x040 q) d s)
  | .wrDigestb q d s => .bus (writeTx (windowAddr 0x080 q) d s)
  | .wrMsg o d s => .bus (writeTx (0x1000 + o) d s)
  | .wrRsv a d s => .bus (writeTx a d s)
  | .cmdNop => .cmd 0x00000000
  | .cmdStart => .cmd 0x00000001
  | .cmdClear => .cmd 0x00000002
  | .cmdIllegal d => .cmd d
  | .uopLoad => .uop 1
  | .uopSched => .uop 2
  | .uopCinit => .uop 3
  | .uopRound => .uop 4
  | .uopFeed => .uop 5
  | .uopFinal => .uop 6

/-- The 33-bit key `{W, ADDR}` of a transaction (R94). -/
def BusTx.key (t : BusTx) : BitVec 33 := BitVec.ofBool t.write ++ t.addr

/-- The BUS rows of `spec/opcode_table.json` other than the two catch-alls: mnemonic, `match`, `mask`,
transcribed from the table. The window rows' pair is that of `MSG_MEM_BYTES` = 4096 (R95). -/
def busRows : List (String × BitVec 33 × BitVec 33) :=
  [("RD_ID", 0x000000000, 0x1FFFFFFFC),
   ("RD_CMD", 0x000000004, 0x1FFFFFFFC),
   ("RD_STATUS", 0x000000008, 0x1FFFFFFFC),
   ("RD_MSG_LEN", 0x00000000C, 0x1FFFFFFFC),
   ("RD_BLOCKS", 0x000000010, 0x1FFFFFFFC),
   ("RD_NBLOCKS", 0x000000014, 0x1FFFFFFFC),
   ("RD_MSG_CAP", 0x000000018, 0x1FFFFFFFC),
   ("RD_DIGEST", 0x000000020, 0x1FFFFFFE0),
   ("RD_HEX", 0x000000040, 0x1FFFFFFC0),
   ("RD_DIGESTB", 0x000000080, 0x1FFFFFFE0),
   ("RD_MSG", 0x000001000, 0x1FFFFF000)] ++
  [("WR_ID", 0x100000000, 0x1FFFFFFFC),
   ("WR_CMD", 0x100000004, 0x1FFFFFFFC),
   ("WR_STATUS", 0x100000008, 0x1FFFFFFFC),
   ("WR_MSG_LEN", 0x10000000C, 0x1FFFFFFFC),
   ("WR_BLOCKS", 0x100000010, 0x1FFFFFFFC),
   ("WR_NBLOCKS", 0x100000014, 0x1FFFFFFFC),
   ("WR_MSG_CAP", 0x100000018, 0x1FFFFFFFC),
   ("WR_DIGEST", 0x100000020, 0x1FFFFFFE0),
   ("WR_HEX", 0x100000040, 0x1FFFFFFC0),
   ("WR_DIGESTB", 0x100000080, 0x1FFFFFFE0),
   ("WR_MSG", 0x100001000, 0x1FFFFF000)]

end Sys2Proof
end

