-- ==== Sys2Proof/Machine/State.lean ====
section
/-! DEFINITION. The machine's state as plain data (10_state.md R22-R31), the reasons a step can stop,
and the state right after power-on and reset (R44). -/

namespace Sys2Proof.Machine

/-- The sequencer state `PHASE` (R25): the eight names of its eight 3-bit codes. -/
inductive Phase where
  | idle
  | load
  | sched
  | cinit
  | round
  | feed
  | final
  | done
  deriving DecidableEq, Repr

/-- The message memory `MEM` (R31, R79): the bytes written since power-on, by rising offset. An offset
not listed holds an unspecified byte, and a read of it is a fresh draw. -/
abbrev Memory := List Host.Cell

/-- An event of the interleaving of R20: a host bus transaction, a turn of the core, a reset. -/
inductive Input where
  | bus (t : BusTx)
  | core
  | reset
  deriving DecidableEq, Repr

/-- No step faults: "The hardware has no trap, exception or fault mechanism" (60_exceptions.md R240). -/
inductive Fault where
  deriving DecidableEq, Repr

/-- Why an instruction has no meaning. `notModelled` is raised by no arm: every row has its meaning. It
is safe. -/
inductive Refusal where
  | notModelled (mnemonic : String)
  deriving DecidableEq, Repr

/-- The state. The fields of the spec: `h` = `H` (R22), `a` = `A` (R23), `w` = `W` (R24), `phase` =
`PHASE` (R25), `stepIdx` = `STEP` (R26), `kblk` = `KBLK`, `nblk` = `NBLK` (R27), `dg` = `DG` (R28),
`msgLen` = `MSG_LEN` (R29), the sticky flags (R30), `mem` = `MEM` (R31), `rdata` = the port
`bus_rdata` (R21; log 3), `cfg` = the parameter of R8, which no step changes (log 2). The model's own:
`inputs`, the events to come, first one first (log 1), and `draws`, the counter of free values (log 4). -/
structure State where
  cfg : Config
  h : Vector Word 8
  a : Vector Word 8
  w : Vector Word 64
  phase : Phase
  stepIdx : BitVec 7
  kblk : Word
  nblk : Word
  dg : Vector Byte 32
  msgLen : Word
  errCmd : Bool
  errBusy : Bool
  errLen : Bool
  mem : Memory
  rdata : Word
  inputs : List Input
  draws : Nat
  deriving DecidableEq, Repr

/-- R44: every register 0, `PHASE` IDLE; nothing written to `MEM`. The parameter has its default (R8),
no event waits. `rdata` 0 and `draws` 0 are the model's own (logs 3, 4). -/
def State.reset : State where
  cfg := Config.default
  h := Vector.replicate 8 0
  a := Vector.replicate 8 0
  w := Vector.replicate 64 0
  phase := .idle
  stepIdx := 0
  kblk := 0
  nblk := 0
  dg := Vector.replicate 32 0
  msgLen := 0
  errCmd := false
  errBusy := false
  errLen := false
  mem := []
  rdata := 0
  inputs := []
  draws := 0

end Sys2Proof.Machine
end

