-- ==== Sys2Proof/Machine/Ops.lean ====
section
/-! DEFINITION. The named operations over the state and the message memory. The hardware takes no
exception and returns from none (60_exceptions.md R240, R246), so no such operation stands here; what
it does with an error, setting one sticky flag, is `State.setFlag` in Machine/Flags.lean. -/

namespace Sys2Proof.Machine

/-- The 3-bit code of `PHASE` (R25). -/
def Phase.code : Phase → BitVec 3
  | .idle => 0
  | .load => 1
  | .sched => 2
  | .cinit => 3
  | .round => 4
  | .feed => 5
  | .final => 6
  | .done => 7

/-- The name of a `PHASE` code (R25: every 3-bit value is assigned). -/
def Phase.ofCode (p : BitVec 3) : Phase :=
  if p = 0 then .idle
  else if p = 1 then .load
  else if p = 2 then .sched
  else if p = 3 then .cinit
  else if p = 4 then .round
  else if p = 5 then .feed
  else if p = 6 then .final
  else .done

/-- Busy (R15, R35): `PHASE` ∉ {IDLE, DONE}. -/
def Phase.busy : Phase → Bool
  | .idle | .done => false
  | .load | .sched | .cinit | .round | .feed | .final => true

/-- The machine is busy (R15). -/
def State.busy (s : State) : Bool := s.phase.busy

/-- The output `done` (R46): 1 iff `PHASE` = DONE. -/
def State.doneOut (s : State) : Bool := decide (s.phase = .done)

/-! ## Writes of one state element -/

/-- `PHASE <- p ; STEP <- t`. -/
def State.goTo (s : State) (p : Phase) (t : BitVec 7) : State := { s with phase := p, stepIdx := t }

/-- `KBLK <- k ; NBLK <- n`. -/
def State.setBlocks (s : State) (k n : Word) : State := { s with kblk := k, nblk := n }

/-- `H <- v`. -/
def State.setH (s : State) (v : Vector Word 8) : State := { s with h := v }

/-- `A <- v`. -/
def State.setA (s : State) (v : Vector Word 8) : State := { s with a := v }

/-- `W <- v`. -/
def State.setW (s : State) (v : Vector Word 64) : State := { s with w := v }

/-- `DG <- v`. -/
def State.setDg (s : State) (v : Vector Byte 32) : State := { s with dg := v }

/-- `MSG_LEN <- d`. -/
def State.setMsgLen (s : State) (d : Word) : State := { s with msgLen := d }

/-- `MEM <- m`. -/
def State.setMem (s : State) (m : Memory) : State := { s with mem := m }

/-- `rdata <- d`: the answer of a read on the port `bus_rdata` (R21). -/
def State.setRdata (s : State) (d : Word) : State := { s with rdata := d }

/-- The events to come. -/
def State.setInputs (s : State) (is : List Input) : State := { s with inputs := is }

/-- `n` free values are used up. -/
def State.draw (s : State) (n : Nat) : State := { s with draws := s.draws + n }

/-! ## The message memory -/

/-- The byte written last to offset `o`, if one was written since power-on (R79). -/
def Memory.get? : Memory → Nat → Option Byte
  | [], _ => none
  | (p, b) :: m, o => if p = o then some b else Memory.get? m o

/-- `MEM[o] <- b`, keeping the offsets rising. -/
def Memory.set : Memory → Nat → Byte → Memory
  | [], o, b => [(o, b)]
  | (p, c) :: m, o, b =>
    if o < p then (o, b) :: (p, c) :: m
    else if o = p then (o, b) :: m
    else (p, c) :: Memory.set m o b

/-- The canonical form: the offsets rise strictly. No unlisted offset reads as a fixed byte (R79), so
no listed byte can be left out. -/
def Memory.wf : Memory → Bool
  | [] => true
  | [_] => true
  | (p, _) :: (q, c) :: m => decide (p < q) && Memory.wf ((q, c) :: m)

/-- Every listed offset is one of `MEM[0 .. MSG_MEM_BYTES-1]` (R31). -/
def Memory.within (cap : Nat) (m : Memory) : Bool := m.all fun c => decide (c.1 < cap)

/-- `MemWrite(o, 1, b)` (R12, R62). `MEM` has no byte at or above `MSG_MEM_BYTES`: there nothing is
written (log 8; no decoded write reaches one). -/
def Memory.write (m : Memory) (cap o : Nat) (b : Byte) : Memory :=
  if o < cap then m.set o b else m

/-- `MemRead(o, 1)` (R12, R68): the byte written last, or, where none was written, the fresh draw
number `k` (R79). -/
def Memory.read (m : Memory) (o k : Nat) : Byte := (m.get? o).getD (Config.freeByte k)

/-! ## Reset -/

/-- The reset event (R270): every element of R44 to its reset value; `MEM` is not changed. The
parameter, the events to come, the counter of draws and `rdata` are not in R44 and stay. -/
def State.onReset (s : State) : State :=
  { State.reset with
    cfg := s.cfg
    mem := s.mem
    rdata := s.rdata
    inputs := s.inputs
    draws := s.draws }

end Sys2Proof.Machine
end

