-- ==== Sys2Proof/Machine/Operands.lean ====
section
/-! DEFINITION. The operand forms: byte lanes and strobes of host words (20_memory.md R61-R63), the
big-endian words of the core (R170), and the bit operators of 00_scope.md R11. -/

namespace Sys2Proof.Machine

/-- `rotr(x, n)` (R11): "(x >> n) | (x << (32 - n))". -/
def rotr (x : Word) (n : Nat) : Word := (x >>> n) ||| (x <<< (32 - n))

/-- Lane `m` of a host word, `d[8m+7:8m]` (R62). -/
def lane (d : Word) (m : Nat) : Byte := d.extractLsb' (8 * m) 8

/-- The host word whose lanes 0, 1, 2, 3 are the given bytes (R63). -/
def ofLanes (b0 b1 b2 b3 : Byte) : Word := b3 ++ b2 ++ b1 ++ b0

/-- `BE32(b0, b1, b2, b3)` (R12, R170): `{b0, b1, b2, b3}` as a word. -/
def be32 (b0 b1 b2 b3 : Byte) : Word := b0 ++ b1 ++ b2 ++ b3

/-- Byte `m` of a word, most significant first: `(x >> (24 − 8m)) and 0xFF` (R220). -/
def beByte (x : Word) (m : Nat) : Byte := ((x >>> (24 - 8 * m)) &&& 0xFF).setWidth 8

/-- Lane `m` of a write to offset `o`, if the strobe has it (R62). -/
def storeLane (cap o : Nat) (d : Word) (s : Strobe) (mem : Memory) (m : Nat) : Memory :=
  if s.getLsbD m then mem.write cap (o + m) (lane d m) else mem

/-- A message-window write (R62, R127): "for each m in 0..3 with s[m] = 1, MEM[o+m] <- d[8m+7:8m]". -/
def storeLanes (cap o : Nat) (d : Word) (s : Strobe) (mem : Memory) : Memory :=
  [0, 1, 2, 3].foldl (storeLane cap o d s) mem

/-- A message-window read at offset `o` (R63, R128): lane `m` is `MEM[o+m]`; an unwritten byte of lane
`m` is draw `k + m`. -/
def loadLanes (mem : Memory) (o k : Nat) : Word :=
  ofLanes (mem.read o k) (mem.read (o + 1) (k + 1)) (mem.read (o + 2) (k + 2))
    (mem.read (o + 3) (k + 3))

end Sys2Proof.Machine
end

