-- ==== Sys2Proof/Machine/Flags.lean ====
section
/-! DEFINITION. The sticky error flags (10_state.md R30, 60_exceptions.md R241, R244) and the `STATUS`
word made from them (R35). No other flag exists (R47), and no arithmetic sets one (R242). -/

namespace Sys2Proof.Machine

/-- The three sticky flags (R30). -/
inductive ErrFlag where
  | cmd
  | busy
  | len
  deriving DecidableEq, Repr

/-- Whether a flag is set. -/
def State.flag (s : State) : ErrFlag → Bool
  | .cmd => s.errCmd
  | .busy => s.errBusy
  | .len => s.errLen

/-- `set FLAG` (R12): write 1 to one sticky flag. This is all that an error does (R240). -/
def State.setFlag (s : State) : ErrFlag → State
  | .cmd => { s with errCmd := true }
  | .busy => { s with errBusy := true }
  | .len => { s with errLen := true }

/-- What an accepted CLEAR does to the flags (R124, R244): all three to 0. -/
def State.clearFlags (s : State) : State :=
  { s with errCmd := false, errBusy := false, errLen := false }

/-- An error's code is the bit index of its flag in `STATUS` (R241). -/
def ErrFlag.code : ErrFlag → Nat
  | .cmd => 2
  | .busy => 3
  | .len => 4

/-- The `STATUS` word (R35, R130), most significant field first: reserved 31:23, `STEP` 22:16, reserved
15:11, `PHASE` 10:8, reserved 7:5, `ERR_LEN`, `ERR_BUSY`, `ERR_CMD`, `DONE`, `BUSY`. -/
def State.status (s : State) : Word :=
  (0 : BitVec 9) ++ s.stepIdx ++ (0 : BitVec 5) ++ s.phase.code ++ (0 : BitVec 3)
    ++ BitVec.ofBool s.errLen ++ BitVec.ofBool s.errBusy ++ BitVec.ofBool s.errCmd
    ++ BitVec.ofBool s.doneOut ++ BitVec.ofBool s.busy

end Sys2Proof.Machine
end

