-- ==== Sys2Proof/Machine/Padder.lean ====
section
/-! DEFINITION. The padder (41_padder.md): a pure function with no state and no step of its own, which
LOAD evaluates one block at a time. -/

namespace Sys2Proof.Machine

/-- `N`, the number of blocks of a message of `n` bytes (R151). -/
def blockCount (n : Nat) : Nat := (n + 8) / 64 + 1

/-- `L = 8 × n`, as an unsigned 64-bit value (R150). -/
def bitLength (n : Nat) : BitVec 64 := BitVec.ofNat 64 (8 * n)

/-- Byte `j` of the big-endian length field: `(L >> (56 − 8j)) and 0xFF` (R152). -/
def lengthByte (n j : Nat) : Byte := ((bitLength n >>> (56 - 8 * j)) &&& 0xFF).setWidth 8

/-- The padded byte `P(i)` of R152, for a message `msg` of `n` bytes in `nb` blocks. R152 defines it for
`i < 64 × N`; for another `i` it is the free byte `stray` (log 6: no reachable state asks for one). -/
def padByte (msg : Nat → Byte) (n nb i : Nat) (stray : Byte) : Byte :=
  if i < 64 * nb then
    if i < n then msg i
    else if i = n then 0x80
    else if i < 64 * nb - 8 then 0x00
    else lengthByte n (i - (64 * nb - 8))
  else stray

/-- `P(i)` in a state: `n` = `MSG_LEN`, `N` = `NBLK`, `M[i]` = `MEM[i]` (41_padder.md, opening), each
byte of the block with a draw of its own. -/
def State.padByteAt (s : State) (i : Nat) : Byte :=
  padByte (fun o => s.mem.read o (s.draws + o % 64)) s.msgLen.toNat s.nblk.toNat i
    (Config.freeByte (s.draws + i % 64))

/-- Word `i` of block `KBLK`: `BE32(P(64k+4i), P(64k+4i+1), P(64k+4i+2), P(64k+4i+3))` (R174). -/
def State.blockWord (s : State) (i : Nat) : Word :=
  be32 (s.padByteAt (64 * s.kblk.toNat + 4 * i)) (s.padByteAt (64 * s.kblk.toNat + 4 * i + 1))
    (s.padByteAt (64 * s.kblk.toNat + 4 * i + 2)) (s.padByteAt (64 * s.kblk.toNat + 4 * i + 3))

end Sys2Proof.Machine
end

