-- ==== Sys2Proof/Machine/Scheduler.lean ====
section
/-! DEFINITION. The scheduler (42_scheduler.md): the functions `s0`, `s1` and the micro-ops LOAD and
SCHED. -/

namespace Sys2Proof.Machine

/-- `s0(x)` (R171). -/
def s0 (x : Word) : Word := rotr x 7 ^^^ rotr x 18 ^^^ (x >>> 3)

/-- `s1(x)` (R172). -/
def s1 (x : Word) : Word := rotr x 17 ^^^ rotr x 19 ^^^ (x >>> 10)

/-- The word SCHED computes (R173) for `t` = `STEP` in 16..63. For another `STEP` R173 names no word:
a free value (log 5). -/
def State.nextScheduleWord (s : State) : Word :=
  if ht : 16 ≤ s.stepIdx.toNat ∧ s.stepIdx.toNat < 64 then
    s.w[s.stepIdx.toNat - 16] + s0 s.w[s.stepIdx.toNat - 15] + s.w[s.stepIdx.toNat - 7]
      + s1 s.w[s.stepIdx.toNat - 2]
  else Config.freeWord s.draws

/-- LOAD (R174): `W[0..15]` from the block; `STEP <- 16`, `PHASE <- SCHED`. Its 64 bytes use up 64
draws. -/
def execUopLoad (s : State) : Host.Outcome State Fault Refusal :=
  .next (((s.setW (Vector.ofFn fun i : Fin 64 =>
    if i.val < 16 then s.blockWord i.val else s.w[i])).goTo .sched 16).draw 64)

/-- SCHED (R175): `W[t]` for `t` = `STEP`; then the next `t`, or CINIT after 63. `W` has no word above
63 to write (log 5). -/
def execUopSched (s : State) : Host.Outcome State Fault Refusal :=
  let s' := (s.setW (s.w.setIfInBounds s.stepIdx.toNat s.nextScheduleWord)).draw 1
  .next (if s.stepIdx = 63 then s'.goTo .cinit 0 else s'.goTo s.phase (s.stepIdx + 1))

end Sys2Proof.Machine
end

