-- ==== Sys2Proof/Machine/Compressor.lean ====
section
/-! DEFINITION. The compressor (43_compressor.md): the tables IV and K, the round functions, and the
micro-ops CINIT, ROUND and FEED. -/

namespace Sys2Proof.Machine

/-- The initial hash value `IV[0..7]` (R190). -/
def iv : Vector Word 8 :=
  #v[
    0x6a09e667, 0xbb67ae85, 0x3c6ef372, 0xa54ff53a,
    0x510e527f, 0x9b05688c, 0x1f83d9ab, 0x5be0cd19]

/-- The primes `p_0 .. p_63` of R191, from which its rule computes `K`. -/
def kPrimes : List Nat :=
  [2, 3, 5, 7, 11, 13, 17, 19, 23, 29, 31, 37, 41, 43, 47, 53] ++
  [59, 61, 67, 71, 73, 79, 83, 89, 97, 101, 103, 107, 109, 113, 127, 131] ++
  [137, 139, 149, 151, 157, 163, 167, 173, 179, 181, 191, 193, 197, 199, 211, 223] ++
  [227, 229, 233, 239, 241, 251, 257, 263, 269, 271, 277, 281, 283, 293, 307, 311]

/-- The low `b` bits of an exact integer cube root: from a lower bound `r` whose error is below `2^b`, each
bit is kept if the cube stays at or below `x`. -/
def cubeRootFrom (x : Nat) : Nat → Nat → Nat
  | 0, r => r
  | b + 1, r => cubeRootFrom x b (if (r + 2 ^ b) ^ 3 ≤ x then r + 2 ^ b else r)

/-- `K[i]` from its prime (R191): `floor(cbrt(p × 2^96)) mod 2^32`. The root has at most 35 bits, since
311 < 2^9. -/
def roundConstOf (p : Nat) : Word := BitVec.ofNat 32 (cubeRootFrom (p * 2 ^ 96) 35 0)

/-- The round constants `K[0..63]`, computed from the definition that R191 gives. The values R191 lists are
the expected results of the tests. -/
def kTable : Vector Word 64 := ⟨(kPrimes.map roundConstOf).toArray, rfl⟩

/-- `S1(e)` (R192). -/
def bigS1 (e : Word) : Word := rotr e 6 ^^^ rotr e 11 ^^^ rotr e 25

/-- `ch(e, f, g)` (R193). -/
def ch (e f g : Word) : Word := (e &&& f) ^^^ ((~~~e) &&& g)

/-- `S0(a)` (R194). -/
def bigS0 (a : Word) : Word := rotr a 2 ^^^ rotr a 13 ^^^ rotr a 22

/-- `maj(a, b, c)` (R195). -/
def maj (a b c : Word) : Word := (a &&& b) ^^^ (a &&& c) ^^^ (b &&& c)

/-- `t1` of the round function (R196): `h + S1(e) + ch(e, f, g) + k + w`. -/
def roundT1 (v : Vector Word 8) (k w : Word) : Word := v[7] + bigS1 v[4] + ch v[4] v[5] v[6] + k + w

/-- `t2` of the round function (R196): `S0(a) + maj(a, b, c)`. -/
def roundT2 (v : Vector Word 8) : Word := bigS0 v[0] + maj v[0] v[1] v[2]

/-- `Round(A, k, w)` (R196): the simultaneous form. -/
def roundFn (v : Vector Word 8) (k w : Word) : Vector Word 8 :=
  #v[roundT1 v k w + roundT2 v, v[0], v[1], v[2], v[3] + roundT1 v k w, v[4], v[5], v[6]]

/-- `K[r]` for `r` = `STEP` (R198); the table has no entry above 63: there a free value (log 5). -/
def State.roundConst (s : State) : Word :=
  if hr : s.stepIdx.toNat < 64 then kTable[s.stepIdx.toNat] else Config.freeWord s.draws

/-- `W[r]` for `r` = `STEP` (R198); `W` has no word above 63: there a free value (log 5). -/
def State.roundWord (s : State) : Word :=
  if hr : s.stepIdx.toNat < 64 then s.w[s.stepIdx.toNat] else Config.freeWord (s.draws + 1)

/-- CINIT (R197): `A <- H`; `STEP <- 0`, `PHASE <- ROUND`. -/
def execUopCinit (s : State) : Host.Outcome State Fault Refusal :=
  .next ((s.setA s.h).goTo .round 0)

/-- ROUND (R198): `A <- Round(A, K[r], W[r])` for `r` = `STEP`; then the next `r`, or FEED after 63. -/
def execUopRound (s : State) : Host.Outcome State Fault Refusal :=
  let s' := (s.setA (roundFn s.a s.roundConst s.roundWord)).draw 2
  .next (if s.stepIdx = 63 then s'.goTo .feed 0 else s'.goTo s.phase (s.stepIdx + 1))

/-- FEED (R199): `H[j] <- H[j] + A[j]`, `KBLK <- KBLK + 1`, and LOAD if another block remains, FINAL
otherwise. The test reads `KBLK` as it was before the step. -/
def execUopFeed (s : State) : Host.Outcome State Fault Refusal :=
  .next (((s.setH (Vector.ofFn fun j : Fin 8 => s.h[j] + s.a[j])).setBlocks (s.kblk + 1) s.nblk).goTo
    (if s.kblk + 1 < s.nblk then .load else .final) 0)

end Sys2Proof.Machine
end

