-- ==== Sys2Proof/Machine/Serializer.lean ====
section
/-! DEFINITION. The digest serializer (44_digest_serializer.md): `Serialize`, `HexChar` and the
micro-op FINAL. -/

namespace Sys2Proof.Machine

/-- `Serialize(H)` (R220): `DG[4j + m] = (H[j] >> (24 − 8m)) and 0xFF`. -/
def serialize (h : Vector Word 8) : Vector Byte 32 :=
  Vector.ofFn fun i : Fin 32 => beByte (h[i.val / 4]) (i.val % 4)

/-- The character of a hex digit (R221): '0'..'9' from 0x30, 'a'..'f' from 0x61. -/
def hexDigit (v : Byte) : Byte := if v ≤ 9 then 0x30 + v else 0x61 + (v - 10)

/-- `HexChar(i)` (R221): character `i` of the rendering, the high nibble first. -/
def hexChar (dg : Vector Byte 32) (i : Fin 64) : Byte :=
  hexDigit (if i.val % 2 = 0 then dg[i.val / 2] >>> 4 else dg[i.val / 2] &&& 0x0F)

/-- FINAL (R222): `DG <- Serialize(H)`; `PHASE <- DONE`, `STEP <- 0`. -/
def execUopFinal (s : State) : Host.Outcome State Fault Refusal :=
  .next ((s.setDg (serialize s.h)).goTo .done 0)

end Sys2Proof.Machine
end

