-- ==== Sys2Proof/Machine/Command.lean ====
section
/-! DEFINITION. The commands (40_host_interface.md R122-R125) and the command write that reaches them
(R141). -/

namespace Sys2Proof.Machine

/-- NOP (R122): no state changes. -/
def execCmdNop (s : State) : Host.Outcome State Fault Refusal := .next s

/-- START (R123). -/
def execCmdStart (s : State) : Host.Outcome State Fault Refusal :=
  .next
    (if s.busy then s.setFlag .busy
     else if s.cfg.cap < s.msgLen.toNat then (s.setFlag .len).goTo .idle 0
     else ((s.setH iv).setBlocks 0 (BitVec.ofNat 32 (blockCount s.msgLen.toNat))).goTo .load 0)

/-- CLEAR (R124). -/
def execCmdClear (s : State) : Host.Outcome State Fault Refusal :=
  .next
    (if s.busy then s.setFlag .busy
     else ((s.clearFlags.setBlocks 0 0).goTo .idle 0))

/-- An illegal command word (R125): `set ERR_CMD`, in any phase, and nothing else. -/
def execCmdIllegal (_d : Word) (s : State) : Host.Outcome State Fault Refusal :=
  .next (s.setFlag .cmd)

/-- A command write (R141): the encoding is checked first, whatever the phase. The strobe is ignored
(R65). -/
def execWrCmd (d : Word) (_s : Strobe) (s : State) : Host.Outcome State Fault Refusal :=
  if d = 0x00000000 then execCmdNop s
  else if d = 0x00000001 then execCmdStart s
  else if d = 0x00000002 then execCmdClear s
  else execCmdIllegal d s

end Sys2Proof.Machine
end

