-- ==== Sys2Proof/Machine/BusWrite.lean ====
section
/-! DEFINITION. The write transactions other than the command write (40_host_interface.md R120, R126,
R127, R139, R140). -/

namespace Sys2Proof.Machine

/-- A write that the map ignores (R139, R140): no state changes, no flag, even while busy. -/
def ignoreWrite (s : State) : Host.Outcome State Fault Refusal := .next s

/-- A write of state that a run uses (R126, R127): refused with `ERR_BUSY` while busy. -/
def writeUnlessBusy (s : State) (written : State) : Host.Outcome State Fault Refusal :=
  .next (if s.busy then s.setFlag .busy else written)

/-- WR_MSG_LEN (R126): `MSG_LEN <- d`, any value; the strobe is ignored (R65). -/
def execWrMsgLen (d : Word) (_s : Strobe) (s : State) : Host.Outcome State Fault Refusal :=
  writeUnlessBusy s (s.setMsgLen d)

/-- WR_MSG (R127): the strobed lanes to `MEM[o .. o+3]`. -/
def execWrMsg (o d : Word) (st : Strobe) (s : State) : Host.Outcome State Fault Refusal :=
  writeUnlessBusy s (s.setMem (storeLanes s.cfg.cap o.toNat d st s.mem))

/-- WR_ID (R139). -/
def execWrId (_d : Word) (_s : Strobe) (s : State) : Host.Outcome State Fault Refusal := ignoreWrite s

/-- WR_STATUS (R139). -/
def execWrStatus (_d : Word) (_s : Strobe) (s : State) : Host.Outcome State Fault Refusal :=
  ignoreWrite s

/-- WR_BLOCKS (R139). -/
def execWrBlocks (_d : Word) (_s : Strobe) (s : State) : Host.Outcome State Fault Refusal :=
  ignoreWrite s

/-- WR_NBLOCKS (R139). -/
def execWrNblocks (_d : Word) (_s : Strobe) (s : State) : Host.Outcome State Fault Refusal :=
  ignoreWrite s

/-- WR_MSG_CAP (R139). -/
def execWrMsgCap (_d : Word) (_s : Strobe) (s : State) : Host.Outcome State Fault Refusal :=
  ignoreWrite s

/-- WR_DIGEST (R139). -/
def execWrDigest (_j : Fin 8) (_d : Word) (_s : Strobe) (s : State) :
    Host.Outcome State Fault Refusal :=
  ignoreWrite s

/-- WR_HEX (R139). -/
def execWrHex (_q : Fin 16) (_d : Word) (_s : Strobe) (s : State) :
    Host.Outcome State Fault Refusal :=
  ignoreWrite s

/-- WR_DIGESTB (R139). -/
def execWrDigestb (_q : Fin 8) (_d : Word) (_s : Strobe) (s : State) :
    Host.Outcome State Fault Refusal :=
  ignoreWrite s

/-- WR_RSV (R140): a write to a reserved address is ignored. -/
def execWrRsv (_a _d : Word) (_s : Strobe) (s : State) : Host.Outcome State Fault Refusal :=
  ignoreWrite s

end Sys2Proof.Machine
end

