-- ==== Sys2Proof/Machine/BusRead.lean ====
section
/-! DEFINITION. The read transactions (40_host_interface.md R121, R128-R138, R140). A read answers on
`bus_rdata` and changes no state element of the spec (20_memory.md R67). -/

namespace Sys2Proof.Machine

/-- `ID` (R33): the constant 0x5348_4132. -/
def idValue : Word := 0x53484132

/-- `DIGEST<j>` (R40, R135): `BE32(DG[4j], DG[4j+1], DG[4j+2], DG[4j+3])`. -/
def digestWord (dg : Vector Byte 32) (j : Fin 8) : Word :=
  be32 dg[4 * j.val] dg[4 * j.val + 1] dg[4 * j.val + 2] dg[4 * j.val + 3]

/-- `HEX<q>` (R41, R136): characters `4q .. 4q+3` in lanes 0..3. -/
def hexWord (dg : Vector Byte 32) (q : Fin 16) : Word :=
  ofLanes (hexChar dg ⟨4 * q.val, by omega⟩) (hexChar dg ⟨4 * q.val + 1, by omega⟩)
    (hexChar dg ⟨4 * q.val + 2, by omega⟩) (hexChar dg ⟨4 * q.val + 3, by omega⟩)

/-- `DIGESTB<q>` (R42, R137): `DG[4q+m]` in lane `m`. -/
def digestbWord (dg : Vector Byte 32) (q : Fin 8) : Word :=
  ofLanes dg[4 * q.val] dg[4 * q.val + 1] dg[4 * q.val + 2] dg[4 * q.val + 3]

/-- The gate of the digest windows (R135-R137): the value in DONE, 0 in every other phase. -/
def State.gated (s : State) (v : Word) : Word := if s.phase = .done then v else 0

/-- RD_ID (R129). -/
def execRdId (s : State) : Host.Outcome State Fault Refusal := .next (s.setRdata idValue)

/-- RD_CMD (R138): reads 0. -/
def execRdCmd (s : State) : Host.Outcome State Fault Refusal := .next (s.setRdata 0)

/-- RD_STATUS (R130). -/
def execRdStatus (s : State) : Host.Outcome State Fault Refusal := .next (s.setRdata s.status)

/-- RD_MSG_LEN (R131). -/
def execRdMsgLen (s : State) : Host.Outcome State Fault Refusal := .next (s.setRdata s.msgLen)

/-- RD_BLOCKS (R132): `KBLK`. -/
def execRdBlocks (s : State) : Host.Outcome State Fault Refusal := .next (s.setRdata s.kblk)

/-- RD_NBLOCKS (R133): `NBLK`. -/
def execRdNblocks (s : State) : Host.Outcome State Fault Refusal := .next (s.setRdata s.nblk)

/-- RD_MSG_CAP (R134): `MSG_MEM_BYTES`. -/
def execRdMsgCap (s : State) : Host.Outcome State Fault Refusal :=
  .next (s.setRdata s.cfg.msgMemBytes)

/-- RD_DIGEST (R135). -/
def execRdDigest (j : Fin 8) (s : State) : Host.Outcome State Fault Refusal :=
  .next (s.setRdata (s.gated (digestWord s.dg j)))

/-- RD_HEX (R136). -/
def execRdHex (q : Fin 16) (s : State) : Host.Outcome State Fault Refusal :=
  .next (s.setRdata (s.gated (hexWord s.dg q)))

/-- RD_DIGESTB (R137). -/
def execRdDigestb (q : Fin 8) (s : State) : Host.Outcome State Fault Refusal :=
  .next (s.setRdata (s.gated (digestbWord s.dg q)))

/-- RD_MSG (R128): `MEM[o .. o+3]`, in every phase; its four lanes use up four draws (R79). -/
def execRdMsg (o : Word) (s : State) : Host.Outcome State Fault Refusal :=
  .next ((s.setRdata (loadLanes s.mem o.toNat s.draws)).draw 4)

/-- RD_RSV (R140): a reserved address reads 0. -/
def execRdRsv (_a : Word) (s : State) : Host.Outcome State Fault Refusal := .next (s.setRdata 0)

end Sys2Proof.Machine
end

