-- ==== Sys2Proof/Machine/Dispatch.lean ====
section
/-! DEFINITION. The meaning of every instruction: one arm for each row of the opcode table. -/

namespace Sys2Proof.Machine

def exec (i : Instr) (s : State) : Host.Outcome State Fault Refusal :=
  match i with
  -- read transactions
  | .rdId => Sys2Proof.Machine.execRdId s
  | .rdCmd => Sys2Proof.Machine.execRdCmd s
  | .rdStatus => Sys2Proof.Machine.execRdStatus s
  | .rdMsgLen => Sys2Proof.Machine.execRdMsgLen s
  | .rdBlocks => Sys2Proof.Machine.execRdBlocks s
  | .rdNblocks => Sys2Proof.Machine.execRdNblocks s
  | .rdMsgCap => Sys2Proof.Machine.execRdMsgCap s
  | .rdDigest j => Sys2Proof.Machine.execRdDigest j s
  | .rdHex q => Sys2Proof.Machine.execRdHex q s
  | .rdDigestb q => Sys2Proof.Machine.execRdDigestb q s
  | .rdMsg o => Sys2Proof.Machine.execRdMsg o s
  | .rdRsv a => Sys2Proof.Machine.execRdRsv a s
  -- write transactions
  | .wrId d st => Sys2Proof.Machine.execWrId d st s
  | .wrCmd d st => Sys2Proof.Machine.execWrCmd d st s
  | .wrStatus d st => Sys2Proof.Machine.execWrStatus d st s
  | .wrMsgLen d st => Sys2Proof.Machine.execWrMsgLen d st s
  | .wrBlocks d st => Sys2Proof.Machine.execWrBlocks d st s
  | .wrNblocks d st => Sys2Proof.Machine.execWrNblocks d st s
  | .wrMsgCap d st => Sys2Proof.Machine.execWrMsgCap d st s
  | .wrDigest j d st => Sys2Proof.Machine.execWrDigest j d st s
  | .wrHex q d st => Sys2Proof.Machine.execWrHex q d st s
  | .wrDigestb q d st => Sys2Proof.Machine.execWrDigestb q d st s
  | .wrMsg o d st => Sys2Proof.Machine.execWrMsg o d st s
  | .wrRsv a d st => Sys2Proof.Machine.execWrRsv a d st s
  -- commands
  | .cmdNop => Sys2Proof.Machine.execCmdNop s
  | .cmdStart => Sys2Proof.Machine.execCmdStart s
  | .cmdClear => Sys2Proof.Machine.execCmdClear s
  | .cmdIllegal d => Sys2Proof.Machine.execCmdIllegal d s
  -- micro-ops
  | .uopLoad => Sys2Proof.Machine.execUopLoad s
  | .uopSched => Sys2Proof.Machine.execUopSched s
  | .uopCinit => Sys2Proof.Machine.execUopCinit s
  | .uopRound => Sys2Proof.Machine.execUopRound s
  | .uopFeed => Sys2Proof.Machine.execUopFeed s
  | .uopFinal => Sys2Proof.Machine.execUopFinal s

end Sys2Proof.Machine
end

