-- ==== Sys2Proof/Machine/Fetch.lean ====
section
/-! DEFINITION. Which instruction the next step runs (10_state.md R20, 30_encoding.md R95, R96). The
machine fetches no program (20_memory.md R77): the next event of the interleaving is the first element
of `inputs`, and a turn of the core runs the micro-op that `PHASE` selects. -/

namespace Sys2Proof.Machine

/-- What the next step does: run an instruction in a state, or nothing more than reach a state (a core
without a step, R20; a reset event, R270). -/
inductive Fetched where
  | run (i : Instr) (s : State)
  | quiet (s : State)
  deriving DecidableEq, Repr

/-- A turn of the core (R20, R96): the micro-op that `PHASE` selects; in IDLE and DONE the core has no
step. -/
def State.coreTurn (s : State) : Fetched :=
  match decodeUop s.phase.code with
  | some i => .run i s
  | none => .quiet s

/-- The next event. With none waiting the core has its turn (log 1). -/
def State.fetch (s : State) : Fetched :=
  match s.inputs with
  | [] => s.coreTurn
  | .core :: is => (s.setInputs is).coreTurn
  | .bus t :: is => .run (decodeBus s.cfg t) (s.setInputs is)
  | .reset :: is => .quiet (s.setInputs is).onReset

/-- The index `STEP` holds when a phase begins (R26): 16 in SCHED, 0 in every other phase. -/
def Phase.firstIndex : Phase → BitVec 7
  | .sched => 16
  | .idle | .load | .cinit | .round | .feed | .final | .done => 0

/-- A state in which the next step runs the instruction of a key (log 1). A transaction comes next; a
command word comes next as the data of a write to `CMD` (R90) with strobe 0xF (R98); a micro-op is
selected by `PHASE`, with the `STEP` that phase begins with, and the core has the next turn. -/
def State.placeKey (s : State) : Key → State
  | .bus t => s.setInputs (.bus t :: s.inputs)
  | .cmd d => s.setInputs (.bus (writeTx 0x004 d 0xF) :: s.inputs)
  | .uop p => (s.goTo (Phase.ofCode p) (Phase.ofCode p).firstIndex).setInputs (.core :: s.inputs)

end Sys2Proof.Machine
end

