-- ==== Sys2Proof/Machine/Step.lean ====
section
/-! DEFINITION. One step of the machine (10_state.md R20, 00_scope.md R13): one atomic transition of
one agent. -/

namespace Sys2Proof.Machine

/-- One step: the next event of the interleaving. -/
def step (s : State) : Host.Outcome State Fault Refusal :=
  match s.fetch with
  | .run i t => exec i t
  | .quiet t => .next t

/-- The state whose next step runs the instruction of a row's bits. -/
def State.withFetchWord (s : State) (nbits w : Nat) : State := s.placeKey (Key.ofTableWord nbits w)

end Sys2Proof.Machine
end

