-- ==== Sys2Proof/Machine/Contract.lean ====
section
/-! DEFINITION. The source's contracts as pure functions, the yardstick for the micro-stepped machine:
`pad` by its steps 1 to 5 (R151), `expand` (42_scheduler.md), `compress` (43_compressor.md) and
`finalize` (44_digest_serializer.md), over lists and without any of the machine's state. -/

namespace Sys2Proof.Machine.Contract

/-- `pad` (R151), the source's steps: the message, 0x80, `z = (55 − n) mod 64` bytes 0x00, and `L` as a
big-endian 64-bit integer. `(119 − n mod 64) mod 64` is that `z` in natural numbers. -/
def pad (msg : List Byte) : List Byte :=
  msg ++ [0x80] ++ List.replicate ((119 - msg.length % 64) % 64) 0x00
    ++ (List.range 8).map fun j => lengthByte msg.length j

/-- Block `k` (R153): 64 bytes of the padded message. -/
def block (padded : List Byte) (k : Nat) : List Byte := (padded.drop (64 * k)).take 64

/-- Bytes grouped big-endian into words (R170). -/
def words : List Byte → List Word
  | b0 :: b1 :: b2 :: b3 :: bs => be32 b0 b1 b2 b3 :: words bs
  | _ => []

/-- `k` more schedule words after the words `ws` (R173): each from the words 16, 15, 7 and 2 places
before it. -/
def extend : Nat → List Word → List Word
  | 0, ws => ws
  | k + 1, ws =>
    extend k (ws ++ [ws.getD (ws.length - 16) 0 + s0 (ws.getD (ws.length - 15) 0)
      + ws.getD (ws.length - 7) 0 + s1 (ws.getD (ws.length - 2) 0)])

/-- `expand` (42_scheduler.md): the 64-word schedule of a block. -/
def expand (blk : List Byte) : List Word := extend 48 (words blk)

/-- The source's round, in its sequential form (R13): `h=g; g=f; f=e; e=(d+t1) mod 2^32; d=c; c=b; b=a;
a=(t1+t2) mod 2^32`, with `t1` and `t2` computed before it. -/
def round (v : Vector Word 8) (k w : Word) : Vector Word 8 :=
  let t1 := v[7] + bigS1 v[4] + ch v[4] v[5] v[6] + k + w
  let t2 := bigS0 v[0] + maj v[0] v[1] v[2]
  let v := v.set 7 v[6]
  let v := v.set 6 v[5]
  let v := v.set 5 v[4]
  let v := v.set 4 (v[3] + t1)
  let v := v.set 3 v[2]
  let v := v.set 2 v[1]
  let v := v.set 1 v[0]
  v.set 0 (t1 + t2)

/-- `compress` (43_compressor.md): 64 rounds from the state, then `state[j] += register[j]`. -/
def compress (ws : List Word) (h : Vector Word 8) : Vector Word 8 :=
  let v := (kTable.toList.zip ws).foldl (fun v kw => round v kw.1 kw.2) h
  Vector.ofFn fun j : Fin 8 => h[j] + v[j]

/-- The hash state after the first `k` blocks of a padded message, in block order (R200). -/
def hashBlocks (padded : List Byte) : Nat → Vector Word 8
  | 0 => iv
  | k + 1 => compress (expand (block padded k)) (hashBlocks padded k)

/-- `finalize(state)` after all blocks: the 32-byte digest of a message (R1, R220). -/
def digest (msg : List Byte) : Vector Byte 32 :=
  serialize (hashBlocks (pad msg) ((pad msg).length / 64))

/-- The 64-character rendering of a digest (R221, R223). -/
def hex (dg : Vector Byte 32) : List Byte := (List.finRange 64).map (hexChar dg)

end Sys2Proof.Machine.Contract
end

