-- ==== Sys2Proof/Machine/Script.lean ====
section
/-! DEFINITION. Host scripts (30_encoding.md R98, R99): the expansions of the pseudo-instructions into
bus transactions. The host and its scripts are outside the block; these are the inputs they give it. -/

namespace Sys2Proof.Machine.Script

/-- `WR addr, data, strb` (R98). -/
def wr (a d : Word) (s : Strobe) : Input := .bus (writeTx a d s)

/-- `RD addr` (R98). -/
def rd (a : Word) : Input := .bus (readTx a)

/-- `CMD.NOP` (R99). -/
def cmdNop : Input := wr 0x004 0x00000000 0xF

/-- `CMD.START` (R99). -/
def cmdStart : Input := wr 0x004 0x00000001 0xF

/-- `CMD.CLEAR` (R99). -/
def cmdClear : Input := wr 0x004 0x00000002 0xF

/-- `SETLEN n` (R99). -/
def setLen (n : Word) : Input := wr 0x00C n 0xF

/-- The words of `LOADMSG` from word `q` on (R99): four bytes a word, the lanes beyond the message 0 and
their strobe bits 0. -/
def loadMsgFrom (q : Nat) : List Byte → List Input
  | [] => []
  | [b0] => [wr (windowAddr 0x1000 q) (ofLanes b0 0 0 0) 0x1]
  | [b0, b1] => [wr (windowAddr 0x1000 q) (ofLanes b0 b1 0 0) 0x3]
  | [b0, b1, b2] => [wr (windowAddr 0x1000 q) (ofLanes b0 b1 b2 0) 0x7]
  | b0 :: b1 :: b2 :: b3 :: bs =>
    wr (windowAddr 0x1000 q) (ofLanes b0 b1 b2 b3) 0xF :: loadMsgFrom (q + 1) bs

/-- `LOADMSG b0 … b(n-1)` (R99). -/
def loadMsg (msg : List Byte) : List Input := loadMsgFrom 0 msg

/-- One round of `POLL addr, …` (R99) that leaves the core `k` turns before the next read. -/
def pollRound (a : Word) (k : Nat) : List Input := rd a :: List.replicate k .core

/-- The test that ends `POLL addr, mask, v` (R99): `(rdata and mask) = v`. -/
def pollMet (mask v : Word) (s : State) : Bool := decide (s.rdata &&& mask = v)

/-- One round of `WAITIDLE` = `POLL 0x008, 0x00000001, 0` (R99). -/
def waitIdleRound (k : Nat) : List Input := pollRound 0x008 k

/-- The test that ends `WAITIDLE` (R99). -/
def waitIdleMet (s : State) : Bool := pollMet 0x00000001 0x00000000 s

end Sys2Proof.Machine.Script
end

