-- ==== Sys2Proof/Safety.lean ====
section
/-! DEFINITION. What the statements speak of: the invariant that rules out the states no run reaches,
and the parts of the state that an instruction leaves alone. -/

namespace Sys2Proof.Machine

/-! ## The invariant -/

/-- `STEP` in each phase (R26): 16..63 in SCHED, 0..63 in ROUND, 0 in every other phase. -/
def State.stepInRange (s : State) : Prop :=
  match s.phase with
  | .sched => 16 ≤ s.stepIdx.toNat ∧ s.stepIdx.toNat ≤ 63
  | .round => s.stepIdx.toNat ≤ 63
  | _ => s.stepIdx = 0

/-- `KBLK` against `NBLK` in each phase (R27, R37, R278): below it while a block is worked on, equal to
it once all blocks are fed back, never above it. -/
def State.blocksInRange (s : State) : Prop :=
  match s.phase with
  | .idle => s.kblk ≤ s.nblk
  | .final | .done => s.kblk = s.nblk
  | _ => s.kblk < s.nblk

/-- What START fixes for a run (R123, R74): the length fits the memory, and `NBLK` is its block count. -/
def State.runFixed (s : State) : Prop :=
  s.busy = true → s.msgLen.toNat ≤ s.cfg.cap ∧ s.nblk.toNat = blockCount s.msgLen.toNat

/-- What DONE means for the digest buffer (R28, R222): `DG` is the serialized hash state. -/
def State.digestHeld (s : State) : Prop := s.phase = .done → s.dg = serialize s.h

/-- The invariant of the machine. -/
structure State.Inv (s : State) : Prop where
  cfg_wf : s.cfg.wf = true
  mem_wf : s.mem.wf = true
  mem_within : s.mem.within s.cfg.cap = true
  step_in_range : s.stepInRange
  blocks_in_range : s.blocksInRange
  run_fixed : s.runFixed
  digest_held : s.digestHeld

/-! ## What stays the same -/

/-- The sequencer and the block counters: `PHASE`, `STEP`, `KBLK`, `NBLK`. -/
def SameSequencer (s t : State) : Prop :=
  t.phase = s.phase ∧ t.stepIdx = s.stepIdx ∧ t.kblk = s.kblk ∧ t.nblk = s.nblk

/-- The register files and the digest buffer: `H`, `A`, `W`, `DG`. -/
def SameHash (s t : State) : Prop := t.h = s.h ∧ t.a = s.a ∧ t.w = s.w ∧ t.dg = s.dg

/-- The three sticky flags. -/
def SameFlags (s t : State) : Prop :=
  t.errCmd = s.errCmd ∧ t.errBusy = s.errBusy ∧ t.errLen = s.errLen

/-- The message: `MSG_LEN`, and every byte of `MEM`, through the read of one byte: a byte that was
written holds the value it held, and a byte that was not is still not written. -/
def SameMessage (s t : State) : Prop :=
  t.msgLen = s.msgLen ∧ ∀ o, t.mem.get? o = s.mem.get? o

/-- The surroundings: the parameter and the events to come. -/
def SameSurroundings (s t : State) : Prop := t.cfg = s.cfg ∧ t.inputs = s.inputs

/-- Every state element of the spec is unchanged (R67); only `rdata` and the counter of draws may
differ. -/
def SameState (s t : State) : Prop :=
  SameSequencer s t ∧ SameHash s t ∧ SameFlags s t ∧ SameMessage s t ∧ SameSurroundings s t

/-! ## The next event -/

/-- A host transaction, not the core's turn and not reset. -/
def Input.isBus : Input → Bool
  | .bus _ => true
  | .core | .reset => false

/-- The event is the core's turn. -/
def Input.isCore : Input → Bool
  | .core => true
  | .bus _ | .reset => false

/-- The event is a reset. -/
def Input.isReset : Input → Bool
  | .reset => true
  | .bus _ | .core => false

/-- The next event is the core's turn: it is given one, or no event waits (log 1). -/
def State.coreNext (s : State) : Bool :=
  match s.inputs with
  | [] => true
  | i :: _ => i.isCore

/-- The next event is a reset. -/
def State.resetNext (s : State) : Bool :=
  match s.inputs with
  | [] => false
  | i :: _ => i.isReset

/-- The write whose turn is next, as its byte address and its data word. -/
def State.nextWrite (s : State) : Option (Nat × Word) :=
  match s.inputs with
  | .bus t :: _ => if t.write then some (t.addr.toNat, t.wdata) else none
  | _ => none

/-- The next event is a write of the command word `d`: to a byte address of the word at 0x004 (R32). -/
def State.commandNext (s : State) (d : Word) : Prop :=
  ∃ a, s.nextWrite = some (a, d) ∧ 0x004 ≤ a ∧ a < 0x008

/-- The next event is a write that R241 refuses while busy: START, CLEAR, a `MSG_LEN` write, or a
message-window write. -/
def State.guardedNext (s : State) : Prop :=
  s.commandNext 0x00000001 ∨ s.commandNext 0x00000002 ∨
    ∃ a d, s.nextWrite = some (a, d) ∧
      ((0x00C ≤ a ∧ a < 0x010) ∨ (0x1000 ≤ a ∧ a < 0x1000 + s.cfg.cap))

/-- How many flags are set in `t` that are not set in `s`. -/
def newFlags (s t : State) : Nat :=
  (!s.errCmd && t.errCmd).toNat + (!s.errBusy && t.errBusy).toNat + (!s.errLen && t.errLen).toNat

end Sys2Proof.Machine
end

