-- ==== Sys2Proof/Certificates/Slice0/Obligations.lean ====
section
/-! DEFINITION. The statements for the provers. Each docstring names the rules of spec/ it formalises.
Where a clause rests on a choice of the model, the docstring names the log entry. -/

open Sys2Proof Sys2Proof.Machine

/-! ## Encoding and decoding -/

/-- Words written out from the opcode table decode to the instructions they stand for (R91, R94, R96;
bits of operands above the key as log 7 lays them out). -/
def Obligations.DecodeWrittenWords : Prop :=
  decodeTableWord 40 0x0000000000 = some .rdId
    ∧ decodeTableWord 40 0x000000003C = some (.rdDigest 7)
    ∧ decodeTableWord 40 0x0000001ABD = some (.rdMsg 0xABC)
    ∧ decodeTableWord 40 0x00000000A0 = some (.rdRsv 0xA0)
    ∧ decodeTableWord 80 0x07006362610100001000 = some (.wrMsg 0 0x00636261 0x7)
    ∧ decodeTableWord 80 0x0F00000005010000000D = some (.wrMsgLen 5 0xF)
    ∧ decodeTableWord 32 0x00000001 = some .cmdStart
    ∧ decodeTableWord 32 0x00000101 = some (.cmdIllegal 0x101)
    ∧ decodeTableWord 8 0x4 = some .uopRound
    ∧ decodeTableWord 8 0x7 = none

/-- HEADLINE (a): for every legal `MSG_MEM_BYTES`, decoding the encoding of a well-formed instruction
gives it back, with every operand. -/
def Obligations.DecodeEncodeRoundTrip : Prop :=
  ∀ (c : Config) (i : Instr), c.wf = true → i.wellFormed c = true → decode c (encode i) = .ok i

/-- The other direction, and well-formedness: the decoder gives a well-formed instruction, and drops of
a transaction only what R64 and R94 say is ignored: address bits [1:0], and the data and strobe of a
read. -/
def Obligations.EncodeDecodeTransaction : Prop :=
  ∀ (c : Config) (t : BusTx), c.wf = true →
    (decodeBus c t).wellFormed c = true
      ∧ encode (decodeBus c t) = .bus
          { write := t.write
            addr := (t.addr >>> 2) <<< 2
            wdata := if t.write then t.wdata else 0
            wstrb := if t.write then t.wstrb else 0 }

/-- R94, R95 for the table's `MSG_MEM_BYTES` = 4096: a row of the opcode table that is no catch-all
applies to a transaction, `(KEY and mask) = match`, exactly when the decoder gives that row; and the
rows do not overlap. -/
def Obligations.BusRowsSelect : Prop :=
  ∀ (t : BusTx),
    (∀ row ∈ busRows,
      (t.key &&& row.2.2 = row.2.1 ↔ (decodeBus Config.default t).mnemonic = row.1))
      ∧ (busRows.filter fun row => decide (t.key &&& row.2.2 = row.2.1)).length ≤ 1

/-- R92: the words that are no command are exactly those with `RSV` ≠ 0 or `OP` ∉ {0, 1, 2}. -/
def Obligations.IllegalWords : Prop :=
  ∀ (d : Word),
    decodeCmd d = .cmdIllegal d ↔
      d.extractLsb' 8 24 ≠ 0 ∨ (d.extractLsb' 0 8 ≠ 0 ∧ d.extractLsb' 0 8 ≠ 1 ∧ d.extractLsb' 0 8 ≠ 2)

/-- R64: a transaction at address `a` acts on the word at `a` with bits [1:0] cleared, and no access
faults. -/
def Obligations.LowAddressBitsIgnored : Prop :=
  ∀ (s : State) (t : BusTx) (is : List Input),
    step (s.setInputs (.bus t :: is))
        = step (s.setInputs (.bus { t with addr := (t.addr >>> 2) <<< 2 } :: is))
      ∧ ∃ u, step (s.setInputs (.bus t :: is)) = .next u

/-! ## The step -/

/-- A step runs the decoded instruction (R20, R95, R96, R270): a waiting transaction runs its BUS row; a
turn of the core, given or by default when nothing waits (log 1), runs the micro-op `PHASE` selects, and
leaves everything as it is where `PHASE` selects none; a reset event resets. That the last two keep
`rdata` is the model's choice (log 3). -/
def Obligations.StepRunsDecodedInstruction : Prop :=
  ∀ (s : State) (t : BusTx) (is : List Input) (i : Instr),
    (s.inputs = .bus t :: is → step s = exec (decodeBus s.cfg t) (s.setInputs is))
      ∧ (s.inputs = .core :: is → decodeUop s.phase.code = some i → step s = exec i (s.setInputs is))
      ∧ (s.inputs = [] → decodeUop s.phase.code = some i → step s = exec i s)
      ∧ (s.inputs = .core :: is → decodeUop s.phase.code = none → step s = .next (s.setInputs is))
      ∧ (s.inputs = [] → decodeUop s.phase.code = none → step s = .next s)
      ∧ (s.inputs = .reset :: is → step s = .next (s.setInputs is).onReset)

/-- R120: the rule that a bus write runs, by the aligned address. That an ignored write keeps `rdata` too,
as its equation says, is the model's choice (log 3). -/
def Obligations.BusWriteSelectsRule : Prop :=
  ∀ (s : State) (t : BusTx) (is : List Input) (a : Word),
    s.inputs = .bus t :: is → t.write = true → a = (t.addr >>> 2) <<< 2 →
      (a = 0x004 → step s = exec (.wrCmd t.wdata t.wstrb) (s.setInputs is))
        ∧ (a = 0x00C → step s = exec (.wrMsgLen t.wdata t.wstrb) (s.setInputs is))
        ∧ (0x1000 ≤ a.toNat → a.toNat < 0x1000 + s.cfg.cap →
            step s = exec (.wrMsg (a - 0x1000) t.wdata t.wstrb) (s.setInputs is))
        ∧ (a ≠ 0x004 → a ≠ 0x00C → ¬ (0x1000 ≤ a.toNat ∧ a.toNat < 0x1000 + s.cfg.cap) →
            step s = .next (s.setInputs is))

/-- R121: the rule that a bus read runs, by the aligned address; 0 at every address that no row
names. -/
def Obligations.BusReadSelectsRule : Prop :=
  ∀ (s : State) (t : BusTx) (is : List Input) (a : Word),
    s.inputs = .bus t :: is → t.write = false → a = (t.addr >>> 2) <<< 2 →
      (a = 0x000 → step s = exec .rdId (s.setInputs is))
        ∧ (a = 0x004 → step s = exec .rdCmd (s.setInputs is))
        ∧ (a = 0x008 → step s = exec .rdStatus (s.setInputs is))
        ∧ (a = 0x00C → step s = exec .rdMsgLen (s.setInputs is))
        ∧ (a = 0x010 → step s = exec .rdBlocks (s.setInputs is))
        ∧ (a = 0x014 → step s = exec .rdNblocks (s.setInputs is))
        ∧ (a = 0x018 → step s = exec .rdMsgCap (s.setInputs is))
        ∧ (∀ j : Fin 8, a.toNat = 0x020 + 4 * j.val → step s = exec (.rdDigest j) (s.setInputs is))
        ∧ (∀ q : Fin 16, a.toNat = 0x040 + 4 * q.val → step s = exec (.rdHex q) (s.setInputs is))
        ∧ (∀ q : Fin 8, a.toNat = 0x080 + 4 * q.val → step s = exec (.rdDigestb q) (s.setInputs is))
        ∧ (0x1000 ≤ a.toNat → a.toNat < 0x1000 + s.cfg.cap →
            step s = exec (.rdMsg (a - 0x1000)) (s.setInputs is))
        ∧ (a = 0x01C ∨ (0x0A0 ≤ a.toNat ∧ a.toNat < 0x1000) ∨ 0x1000 + s.cfg.cap ≤ a.toNat →
            step s = .next ((s.setInputs is).setRdata 0))

/-- R240: every instruction and every step answers a next state; none faults and none is refused; and a
micro-op sets no flag. For operands that no encoding carries this is the model's choice (log 8). -/
def Obligations.EveryStepCompletes : Prop :=
  (∀ s : State, ∃ u, step s = .next u)
    ∧ (∀ (i : Instr) (s : State), ∃ u, exec i s = .next u)
    ∧ ∀ (i : Instr) (s u : State) (p : BitVec 3), decodeUop p = some i → exec i s = .next u →
        SameFlags s u

/-- R20, R254: in IDLE and DONE the core takes no step, given a turn or none (log 1): all state is kept,
and `rdata` with it (the model's choice, log 3). -/
def Obligations.CoreRestsInIdleAndDone : Prop :=
  ∀ (s : State), s.phase = .idle ∨ s.phase = .done → s.coreNext = true →
    ∃ u, step s = .next u ∧ u = s.setInputs s.inputs.tail

/-! ## Commands -/

/-- R122: NOP changes no state, in any phase. That it keeps `rdata` too, as the equation says, is the
model's choice (log 3). -/
def Obligations.NopChangesNothing : Prop := ∀ (s : State), exec .cmdNop s = .next s

/-- R123: START, refused while busy, refused for a length above the memory, or accepted. `NBLK` is
stated for a legal `MSG_MEM_BYTES` (R8). -/
def Obligations.StartCommand : Prop :=
  ∀ (s : State), ∃ u, exec .cmdStart s = .next u
    ∧ u.a = s.a ∧ u.w = s.w ∧ u.dg = s.dg ∧ u.errCmd = s.errCmd
    ∧ SameMessage s u ∧ SameSurroundings s u
    ∧ (s.busy = true →
        u.errBusy = true ∧ u.errLen = s.errLen ∧ u.h = s.h ∧ SameSequencer s u)
    ∧ (s.busy = false → s.cfg.cap < s.msgLen.toNat →
        u.errLen = true ∧ u.errBusy = s.errBusy ∧ u.h = s.h ∧ u.phase = .idle ∧ u.stepIdx = 0
          ∧ u.kblk = s.kblk ∧ u.nblk = s.nblk)
    ∧ (s.busy = false → s.msgLen.toNat ≤ s.cfg.cap → s.cfg.wf = true →
        SameFlags s u ∧ u.h = iv ∧ u.nblk.toNat = (s.msgLen.toNat + 8) / 64 + 1 ∧ u.kblk = 0
          ∧ u.stepIdx = 0 ∧ u.phase = .load)

/-- R124: CLEAR, refused while busy, or back to IDLE with the flags and the block counters cleared. -/
def Obligations.ClearCommand : Prop :=
  ∀ (s : State), ∃ u, exec .cmdClear s = .next u
    ∧ SameHash s u ∧ SameMessage s u ∧ SameSurroundings s u
    ∧ (s.busy = true →
        u.errBusy = true ∧ u.errCmd = s.errCmd ∧ u.errLen = s.errLen ∧ SameSequencer s u)
    ∧ (s.busy = false →
        u.errCmd = false ∧ u.errBusy = false ∧ u.errLen = false ∧ u.phase = .idle ∧ u.stepIdx = 0
          ∧ u.kblk = 0 ∧ u.nblk = 0)

/-- R125: an illegal word sets `ERR_CMD` and changes nothing else, in any phase. That the row runs alike for
a word that is legal, which no decoding gives it, is the model's choice (log 8). -/
def Obligations.IllegalCommand : Prop :=
  ∀ (d : Word) (s : State), ∃ u, exec (.cmdIllegal d) s = .next u
    ∧ u.errCmd = true ∧ u.errBusy = s.errBusy ∧ u.errLen = s.errLen
    ∧ SameSequencer s u ∧ SameHash s u ∧ SameMessage s u ∧ SameSurroundings s u

/-- R141: a command write runs the command its word encodes, the encoding checked first whatever the
phase, the strobe ignored; it sets at most one flag. -/
def Obligations.CommandWrite : Prop :=
  ∀ (d : Word) (st : Strobe) (s : State), ∃ u, exec (.wrCmd d st) s = .next u
    ∧ newFlags s u ≤ 1
    ∧ (d = 0x00000000 → exec .cmdNop s = .next u)
    ∧ (d = 0x00000001 → exec .cmdStart s = .next u)
    ∧ (d = 0x00000002 → exec .cmdClear s = .next u)
    ∧ (d ≠ 0x00000000 → d ≠ 0x00000001 → d ≠ 0x00000002 →
        exec (.cmdIllegal d) s = .next u ∧ u.errCmd = true ∧ u.errBusy = s.errBusy)

/-! ## Writes -/

/-- R126: a `MSG_LEN` write stores any word, or is refused with `ERR_BUSY` while busy. -/
def Obligations.WriteMessageLength : Prop :=
  ∀ (d : Word) (st : Strobe) (s : State), ∃ u, exec (.wrMsgLen d st) s = .next u
    ∧ SameSequencer s u ∧ SameHash s u ∧ SameSurroundings s u
    ∧ (∀ o, u.mem.get? o = s.mem.get? o)
    ∧ u.errCmd = s.errCmd ∧ u.errLen = s.errLen
    ∧ (s.busy = true → u.errBusy = true ∧ u.msgLen = s.msgLen)
    ∧ (s.busy = false → u.errBusy = s.errBusy ∧ u.msgLen = d)

/-- R127: a message write stores the strobed lanes, lane `m` to `MEM[o+m]` for `o = a - 0x1000`, and no
other byte, or is refused with `ERR_BUSY` while busy. For a legal `MSG_MEM_BYTES` (R8) and an aligned
address of the window. -/
def Obligations.WriteMessageBytes : Prop :=
  ∀ (a d : Word) (st : Strobe) (s : State) (o : Nat), s.cfg.wf = true → a.toNat % 4 = 0 →
    a.toNat = 0x1000 + o → o < s.cfg.cap →
    ∃ u, exec (.wrMsg (a - 0x1000) d st) s = .next u
      ∧ SameSequencer s u ∧ SameHash s u ∧ SameSurroundings s u
      ∧ u.msgLen = s.msgLen ∧ u.errCmd = s.errCmd ∧ u.errLen = s.errLen
      ∧ (s.busy = true → u.errBusy = true ∧ ∀ x, u.mem.get? x = s.mem.get? x)
      ∧ (s.busy = false →
          u.errBusy = s.errBusy
            ∧ (∀ m, m < 4 → u.mem.get? (o + m) =
                if st.getLsbD m then some (d.extractLsb' (8 * m) 8) else s.mem.get? (o + m))
            ∧ ∀ x, x < o ∨ o + 4 ≤ x → u.mem.get? x = s.mem.get? x)

/-- R139: a write to a read-only register changes no state and sets no flag, even while busy. That it keeps
`rdata` too, as the equations say, is the model's choice (log 3). -/
def Obligations.ReadOnlyWritesIgnored : Prop :=
  ∀ (s : State) (d : Word) (st : Strobe) (j q : Fin 8) (x : Fin 16),
    exec (.wrId d st) s = .next s ∧ exec (.wrStatus d st) s = .next s
      ∧ exec (.wrBlocks d st) s = .next s ∧ exec (.wrNblocks d st) s = .next s
      ∧ exec (.wrMsgCap d st) s = .next s ∧ exec (.wrDigest j d st) s = .next s
      ∧ exec (.wrHex x d st) s = .next s ∧ exec (.wrDigestb q d st) s = .next s

/-- R140: at a reserved address of R70 a read returns 0 and a write is ignored; nothing else changes and
no flag is set. First for the two rows, for every operand, even one that no encoding gives (the model's
choice, log 8), then for the transaction itself. That a write keeps `rdata` too, as its equations say, is
the model's choice (log 3). -/
def Obligations.ReservedAddresses : Prop :=
  (∀ (s : State) (a d : Word) (st : Strobe),
    exec (.wrRsv a d st) s = .next s ∧ exec (.rdRsv a) s = .next (s.setRdata 0))
    ∧ ∀ (s : State) (t : BusTx) (is : List Input), s.inputs = .bus t :: is →
        (0x1C ≤ t.addr.toNat ∧ t.addr.toNat ≤ 0x1F) ∨ (0xA0 ≤ t.addr.toNat ∧ t.addr.toNat ≤ 0xFFF)
          ∨ (s.cfg.wf = true ∧ 0x1000 + s.cfg.cap ≤ t.addr.toNat) →
        (t.write = true → step s = .next (s.setInputs is))
          ∧ (t.write = false → step s = .next ((s.setInputs is).setRdata 0))

/-! ## Reads -/

/-- R129, R131-R134, R138: what these registers read as; no state changes. -/
def Obligations.ReadRegisters : Prop :=
  ∀ (s : State),
    (∃ u, exec .rdId s = .next u ∧ u.rdata = 0x53484132 ∧ SameState s u)
      ∧ (∃ u, exec .rdCmd s = .next u ∧ u.rdata = 0 ∧ SameState s u)
      ∧ (∃ u, exec .rdMsgLen s = .next u ∧ u.rdata = s.msgLen ∧ SameState s u)
      ∧ (∃ u, exec .rdBlocks s = .next u ∧ u.rdata = s.kblk ∧ SameState s u)
      ∧ (∃ u, exec .rdNblocks s = .next u ∧ u.rdata = s.nblk ∧ SameState s u)
      ∧ ∃ u, exec .rdMsgCap s = .next u ∧ u.rdata = s.cfg.msgMemBytes ∧ SameState s u

/-- R130 with the layout of R35: every field of `STATUS`; `BUSY` and `DONE` are never both 1. -/
def Obligations.ReadStatusFields : Prop :=
  ∀ (s : State), ∃ u, exec .rdStatus s = .next u ∧ SameState s u
    ∧ (u.rdata.getLsbD 0 = true ↔ s.phase ≠ .idle ∧ s.phase ≠ .done)
    ∧ (u.rdata.getLsbD 1 = true ↔ s.phase = .done)
    ∧ u.rdata.getLsbD 2 = s.errCmd ∧ u.rdata.getLsbD 3 = s.errBusy ∧ u.rdata.getLsbD 4 = s.errLen
    ∧ u.rdata.extractLsb' 5 3 = 0 ∧ u.rdata.extractLsb' 8 3 = s.phase.code
    ∧ u.rdata.extractLsb' 11 5 = 0 ∧ u.rdata.extractLsb' 16 7 = s.stepIdx
    ∧ u.rdata.extractLsb' 23 9 = 0
    ∧ (u.rdata.getLsbD 0 && u.rdata.getLsbD 1) = false

/-- R128: a message read puts `MEM[(a - 0x1000) + m]` in lane `m`, in every phase, for each byte that was
written since power-on; a byte that was not reads as some byte, of which nothing is said (R79). That the
row runs alike for a misaligned address and for one beyond the memory, which no decoding gives it, is the
model's choice (log 8). -/
def Obligations.ReadMessageBytes : Prop :=
  ∀ (a : Word) (s : State) (o : Nat), a.toNat = 0x1000 + o →
    ∃ u, exec (.rdMsg (a - 0x1000)) s = .next u ∧ SameState s u
      ∧ ∀ m b, m < 4 → s.mem.get? (o + m) = some b → u.rdata.extractLsb' (8 * m) 8 = b

/-- R135, R137: the word window and the byte window of the digest, and 0 in both until DONE. -/
def Obligations.ReadDigestWindows : Prop :=
  ∀ (j : Fin 8) (s : State),
    ∃ u v, exec (.rdDigest j) s = .next u ∧ SameState s u
      ∧ exec (.rdDigestb j) s = .next v ∧ SameState s v
      ∧ (s.phase = .done → ∀ m : Fin 4,
          u.rdata.extractLsb' (24 - 8 * m.val) 8 = s.dg[4 * j.val + m.val]
            ∧ v.rdata.extractLsb' (8 * m.val) 8 = s.dg[4 * j.val + m.val])
      ∧ (s.phase ≠ .done → u.rdata = 0 ∧ v.rdata = 0)

/-- R136: lane `m` of `HEX<q>` is the character of nibble `4q+m` of the digest; 0 until DONE. The order of
the nibbles, high first, and the character codes are those of R221, which marks them as general
knowledge (log 9). -/
def Obligations.ReadHexWindow : Prop :=
  ∀ (q : Fin 16) (s : State), ∃ u, exec (.rdHex q) s = .next u ∧ SameState s u
    ∧ (s.phase = .done → ∀ (m : Fin 4) (v : Nat),
        v = (if m.val % 2 = 0 then s.dg[(4 * q.val + m.val) / 2].toNat / 16
             else s.dg[(4 * q.val + m.val) / 2].toNat % 16) →
        (u.rdata.extractLsb' (8 * m.val) 8).toNat = if v ≤ 9 then 0x30 + v else 0x61 + (v - 10))
    ∧ (s.phase ≠ .done → u.rdata = 0)

/-- R223: the rendering is 64 characters of [0-9a-f], and two digests with one rendering are equal. The
character codes are those of R221, which marks them as general knowledge (log 9). -/
def Obligations.HexRenderingShape : Prop :=
  ∀ (dg : Vector Byte 32),
    (Contract.hex dg).length = 64
      ∧ (∀ c ∈ Contract.hex dg,
          (0x30 ≤ c.toNat ∧ c.toNat ≤ 0x39) ∨ (0x61 ≤ c.toNat ∧ c.toNat ≤ 0x66))
      ∧ ∀ dg', Contract.hex dg = Contract.hex dg' → dg = dg'

/-! ## Padding and scheduling -/

/-- R152: the padded byte `P(i)` for `i < 64 N`, in its four cases; the length field is big-endian. -/
def Obligations.PadBytes : Prop :=
  ∀ (msg : Nat → Byte) (n i : Nat) (x : Byte), n < 2 ^ 32 → i < 64 * blockCount n →
    (i < n → padByte msg n (blockCount n) i x = msg i)
      ∧ (i = n → padByte msg n (blockCount n) i x = 0x80)
      ∧ (n < i → i < 64 * blockCount n - 8 → padByte msg n (blockCount n) i x = 0x00)
      ∧ (64 * blockCount n - 8 ≤ i →
          (padByte msg n (blockCount n) i x).toNat = 8 * n / 2 ^ (8 * (64 * blockCount n - 1 - i)) % 256)

/-- R151: the padded bytes are what the source's steps 1 to 5 give: the message, 0x80, zeros, the
64-bit length; `64 N` bytes in all. -/
def Obligations.PadIsSourcePadding : Prop :=
  ∀ (msg : List Byte) (x : Byte), msg.length < 2 ^ 32 →
    (Contract.pad msg).length = 64 * blockCount msg.length
      ∧ (List.range (64 * blockCount msg.length)).map
          (fun i => padByte (fun o => msg.getD o 0) msg.length (blockCount msg.length) i x)
        = Contract.pad msg

/-- R154: the length field needs an extra block exactly when `n mod 64 ≥ 56`. -/
def Obligations.SpillCondition : Prop :=
  ∀ (n : Nat), blockCount n = if 56 ≤ n % 64 then n / 64 + 2 else n / 64 + 1

/-- R174: LOAD assembles `W[0..15]` of block `KBLK`, big-endian, from the padded bytes of the message in
`MEM`; for a block of the run (`KBLK` < `NBLK`) and a message written by the host (R79). -/
def Obligations.LoadAssemblesBlock : Prop :=
  ∀ (s : State) (msg : Nat → Byte) (x : Byte), s.kblk < s.nblk →
    (∀ o, o < s.msgLen.toNat → s.mem.get? o = some (msg o)) →
    ∃ u, exec .uopLoad s = .next u ∧ u.phase = .sched ∧ u.stepIdx = 16
      ∧ (∀ i : Fin 64, i.val < 16 → ∃ p : Nat → Nat,
          (∀ m, p m = (padByte msg s.msgLen.toNat s.nblk.toNat
            (64 * s.kblk.toNat + 4 * i.val + m) x).toNat)
          ∧ (u.w[i]).toNat = p 0 * 2 ^ 24 + p 1 * 2 ^ 16 + p 2 * 2 ^ 8 + p 3)
      ∧ (∀ i : Fin 64, 16 ≤ i.val → u.w[i] = s.w[i])
      ∧ u.h = s.h ∧ u.a = s.a ∧ u.dg = s.dg ∧ u.kblk = s.kblk ∧ u.nblk = s.nblk
      ∧ SameFlags s u ∧ SameMessage s u ∧ SameSurroundings s u

/-- R175: SCHED computes `W[t]` modulo 2^32 and moves to the next `t`, or to CINIT after 63. -/
def Obligations.SchedComputesWord : Prop :=
  ∀ (s : State) (t : Nat) (_ : 16 ≤ t) (_ : t < 64), s.stepIdx.toNat = t →
    ∃ u, exec .uopSched s = .next u
      ∧ (u.w[t]).toNat = ((s.w[t - 16]).toNat + (s0 s.w[t - 15]).toNat + (s.w[t - 7]).toNat
          + (s1 s.w[t - 2]).toNat) % 2 ^ 32
      ∧ (∀ i : Fin 64, i.val ≠ t → u.w[i] = s.w[i])
      ∧ (t = 63 → u.stepIdx = 0 ∧ u.phase = .cinit)
      ∧ (t ≠ 63 → u.stepIdx.toNat = t + 1 ∧ u.phase = s.phase)
      ∧ u.h = s.h ∧ u.a = s.a ∧ u.dg = s.dg ∧ u.kblk = s.kblk ∧ u.nblk = s.nblk
      ∧ SameFlags s u ∧ SameMessage s u ∧ SameSurroundings s u

/-- R171, R172, R192, R194: the four functions bit by bit, with rotations and with the logical shifts
that fill with zeros (R11). -/
def Obligations.SigmaFunctionBits : Prop :=
  ∀ (x : Word) (i : Nat), i < 32 →
    (s0 x).getLsbD i = ((x.getLsbD ((i + 7) % 32) ^^ x.getLsbD ((i + 18) % 32))
        ^^ (decide (i + 3 < 32) && x.getLsbD (i + 3)))
      ∧ (s1 x).getLsbD i = ((x.getLsbD ((i + 17) % 32) ^^ x.getLsbD ((i + 19) % 32))
        ^^ (decide (i + 10 < 32) && x.getLsbD (i + 10)))
      ∧ (bigS1 x).getLsbD i = ((x.getLsbD ((i + 6) % 32) ^^ x.getLsbD ((i + 11) % 32))
        ^^ x.getLsbD ((i + 25) % 32))
      ∧ (bigS0 x).getLsbD i = ((x.getLsbD ((i + 2) % 32) ^^ x.getLsbD ((i + 13) % 32))
        ^^ x.getLsbD ((i + 22) % 32))

/-! ## Compression -/

/-- R193, R195: a bit of `ch` is `f`'s where `e`'s is 1 and `g`'s where it is 0; a bit of `maj` is the
majority of the three. -/
def Obligations.ChooseAndMajorityBits : Prop :=
  ∀ (x y z : Word) (i : Nat), i < 32 →
    (ch x y z).getLsbD i = (if x.getLsbD i then y.getLsbD i else z.getLsbD i)
      ∧ ((maj x y z).getLsbD i = true ↔
          2 ≤ (x.getLsbD i).toNat + (y.getLsbD i).toNat + (z.getLsbD i).toNat)

/-- R191: `K[i]` is the integer cube root of `p_i × 2^96`, modulo 2^32, for the first 64 primes in
order. -/
def Obligations.RoundConstantsAreCubeRoots : Prop :=
  kPrimes.length = 64 ∧ kPrimes.Pairwise (· < ·)
    ∧ (∀ m, m < 312 → (m ∈ kPrimes ↔ Nat.Prime m))
    ∧ ∀ i : Fin 64, ∃ p c : Nat, kPrimes[i.val]? = some p
      ∧ c ^ 3 ≤ p * 2 ^ 96 ∧ p * 2 ^ 96 < (c + 1) ^ 3 ∧ (kTable[i]).toNat = c % 2 ^ 32

/-- The IV words of R190 are the first 32 bits of the fractional parts of the square roots of the first
eight primes. R190 marks that definition, as well as the values, as general knowledge (log 9). -/
def Obligations.InitialHashIsSquareRoots : Prop :=
  ∀ j : Fin 8, ∃ p c : Nat, ([2, 3, 5, 7, 11, 13, 17, 19] : List Nat)[j.val]? = some p
    ∧ c ^ 2 ≤ p * 2 ^ 64 ∧ p * 2 ^ 64 < (c + 1) ^ 2 ∧ (iv[j]).toNat = c % 2 ^ 32

/-- R197: CINIT copies `H` into `A`. -/
def Obligations.CinitCopiesHashState : Prop :=
  ∀ (s : State), ∃ u, exec .uopCinit s = .next u ∧ u.a = s.h ∧ u.stepIdx = 0 ∧ u.phase = .round
    ∧ u.h = s.h ∧ u.w = s.w ∧ u.dg = s.dg ∧ u.kblk = s.kblk ∧ u.nblk = s.nblk
    ∧ SameFlags s u ∧ SameMessage s u ∧ SameSurroundings s u

/-- R198 with the round function of R196: one round with `K[r]` and `W[r]`, every sum modulo 2^32, and
the next `r`, or FEED after 63. -/
def Obligations.RoundUpdatesWorkingRegisters : Prop :=
  ∀ (s : State) (r : Nat) (_ : r < 64) (t1 t2 : Nat), s.stepIdx.toNat = r →
    t1 = (s.a[7]).toNat + (bigS1 s.a[4]).toNat + (ch s.a[4] s.a[5] s.a[6]).toNat + (kTable[r]).toNat
      + (s.w[r]).toNat →
    t2 = (bigS0 s.a[0]).toNat + (maj s.a[0] s.a[1] s.a[2]).toNat →
    ∃ u, exec .uopRound s = .next u
      ∧ (u.a[0]).toNat = (t1 + t2) % 2 ^ 32 ∧ u.a[1] = s.a[0] ∧ u.a[2] = s.a[1] ∧ u.a[3] = s.a[2]
      ∧ (u.a[4]).toNat = ((s.a[3]).toNat + t1) % 2 ^ 32 ∧ u.a[5] = s.a[4] ∧ u.a[6] = s.a[5]
      ∧ u.a[7] = s.a[6]
      ∧ (r = 63 → u.stepIdx = 0 ∧ u.phase = .feed)
      ∧ (r ≠ 63 → u.stepIdx.toNat = r + 1 ∧ u.phase = s.phase)
      ∧ u.h = s.h ∧ u.w = s.w ∧ u.dg = s.dg ∧ u.kblk = s.kblk ∧ u.nblk = s.nblk
      ∧ SameFlags s u ∧ SameMessage s u ∧ SameSurroundings s u

/-- R13: the source's sequential round is the simultaneous one. -/
def Obligations.SequentialRoundAgrees : Prop :=
  ∀ (v : Vector Word 8) (k w : Word), Contract.round v k w = roundFn v k w

/-- R199: FEED adds `A` into `H` modulo 2^32, counts the block, and goes to LOAD or FINAL by the old
`KBLK`. -/
def Obligations.FeedAddsWorkingRegisters : Prop :=
  ∀ (s : State), ∃ u, exec .uopFeed s = .next u
    ∧ (∀ j : Fin 8, (u.h[j]).toNat = ((s.h[j]).toNat + (s.a[j]).toNat) % 2 ^ 32)
    ∧ u.kblk = s.kblk + 1 ∧ u.nblk = s.nblk ∧ u.stepIdx = 0
    ∧ (s.kblk + 1 < s.nblk → u.phase = .load) ∧ (¬ s.kblk + 1 < s.nblk → u.phase = .final)
    ∧ u.a = s.a ∧ u.w = s.w ∧ u.dg = s.dg
    ∧ SameFlags s u ∧ SameMessage s u ∧ SameSurroundings s u

/-! ## The digest -/

/-- R222 with R220: FINAL serializes `H`, most significant byte first, and reaches DONE, where the three
windows return the digest. -/
def Obligations.FinalSerializesHashState : Prop :=
  ∀ (s : State), ∃ u, exec .uopFinal s = .next u
    ∧ (∀ (j : Fin 8) (m : Fin 4),
        (u.dg[4 * j.val + m.val]).toNat = (s.h[j]).toNat / 2 ^ (24 - 8 * m.val) % 256)
    ∧ u.phase = .done ∧ u.stepIdx = 0 ∧ u.doneOut = true ∧ u.status.getLsbD 1 = true
    ∧ (∀ (j q : Fin 8) (x : Fin 16),
        exec (.rdDigest j) u = .next (u.setRdata (digestWord u.dg j))
          ∧ exec (.rdDigestb q) u = .next (u.setRdata (digestbWord u.dg q))
          ∧ exec (.rdHex x) u = .next (u.setRdata (hexWord u.dg x)))
    ∧ u.h = s.h ∧ u.a = s.a ∧ u.w = s.w ∧ u.kblk = s.kblk ∧ u.nblk = s.nblk
    ∧ SameFlags s u ∧ SameMessage s u ∧ SameSurroundings s u

/-- R40: in DONE the word window reads the words of the hash state. The premise is the invariant. -/
def Obligations.DigestWordIsHashWord : Prop :=
  ∀ (s : State) (j : Fin 8), s.Inv → s.phase = .done →
    ∃ u, exec (.rdDigest j) s = .next u ∧ u.rdata = s.h[j] ∧ SameState s u

/-! ## Invariants and whole-machine rules -/

/-- The state after reset meets the invariant. -/
def Obligations.ResetMeetsInvariant : Prop := State.reset.Inv

/-- HEADLINE (b): from every state that meets the invariant, a step gives a state that meets it. -/
def Obligations.StepKeepsInvariant : Prop :=
  ∀ (s u : State), s.Inv → step s = .next u → u.Inv

/-- R44, R270: the reset values, after power-on and reset and after a reset event in any state; `MEM` is
not changed by the event; `STATUS` reads 0 and `done` is 0. -/
def Obligations.ResetValues : Prop :=
  ∀ (s : State) (is : List Input), s.inputs = .reset :: is →
    ∃ u, step s = .next u ∧ (∀ o, u.mem.get? o = s.mem.get? o)
      ∧ ∀ v, v = u ∨ v = State.reset →
          (∀ j : Fin 8, v.h[j] = 0 ∧ v.a[j] = 0) ∧ (∀ t : Fin 64, v.w[t] = 0)
            ∧ (∀ b : Fin 32, v.dg[b] = 0) ∧ v.phase = .idle ∧ v.stepIdx = 0 ∧ v.kblk = 0
            ∧ v.nblk = 0 ∧ v.msgLen = 0 ∧ v.errCmd = false ∧ v.errBusy = false ∧ v.errLen = false
            ∧ v.status = 0 ∧ v.doneOut = false

/-- R67: no host read has a side effect, whatever the address and the phase. -/
def Obligations.ReadsHaveNoSideEffect : Prop :=
  ∀ (s : State) (t : BusTx) (is : List Input), s.inputs = .bus t :: is → t.write = false →
    ∃ u, step s = .next u ∧ SameState (s.setInputs is) u

/-- The model's choice (log 3): only a read changes `rdata`; no write, no turn of the core and no reset
does. -/
def Obligations.OnlyReadsSetReadData : Prop :=
  ∀ (s u : State), step s = .next u →
    (∀ t is, s.inputs = .bus t :: is → t.write = true) → u.rdata = s.rdata

/-- R241, R244: when each flag is set and when it is cleared, over every step. Outside a reset and an
accepted CLEAR, a flag holds its value or is set by its one cause; an accepted CLEAR and a reset clear
all three. -/
def Obligations.FlagCauses : Prop :=
  ∀ (s u : State), s.cfg.wf = true → step s = .next u →
    (s.resetNext = true ∨ (s.busy = false ∧ s.commandNext 0x00000002) →
        u.errCmd = false ∧ u.errBusy = false ∧ u.errLen = false)
      ∧ (¬ (s.resetNext = true ∨ (s.busy = false ∧ s.commandNext 0x00000002)) →
        (u.errCmd = true ↔ s.errCmd = true ∨ ∃ d, s.commandNext d ∧ 3 ≤ d.toNat)
          ∧ (u.errBusy = true ↔ s.errBusy = true ∨ (s.busy = true ∧ s.guardedNext))
          ∧ (u.errLen = true ↔ s.errLen = true ∨
              (s.busy = false ∧ s.commandNext 0x00000001 ∧ s.cfg.cap < s.msgLen.toNat)))

/-- R243: a step sets at most one flag, and a turn of the core sets none. -/
def Obligations.OneFlagPerStep : Prop :=
  ∀ (s u : State), step s = .next u →
    newFlags s u ≤ 1 ∧ (s.coreNext = true → SameFlags s u)

/-- R22, R23, R24, R28: outside reset, only FEED and an accepted START change `H`, only CINIT and ROUND
`A`, only LOAD and SCHED `W`, only FINAL `DG`. -/
def Obligations.WhoWritesTheRegisterFiles : Prop :=
  ∀ (s u : State), step s = .next u → s.resetNext = false →
    (u.h ≠ s.h → (s.coreNext = true ∧ s.phase = .feed)
        ∨ (s.busy = false ∧ s.commandNext 0x00000001 ∧ s.msgLen.toNat ≤ s.cfg.cap))
      ∧ (u.a ≠ s.a → s.coreNext = true ∧ (s.phase = .cinit ∨ s.phase = .round))
      ∧ (u.w ≠ s.w → s.coreNext = true ∧ (s.phase = .load ∨ s.phase = .sched))
      ∧ (u.dg ≠ s.dg → s.coreNext = true ∧ s.phase = .final)

/-- R245, R46: `done` rises exactly when FINAL runs; it falls exactly by reset, START or CLEAR. -/
def Obligations.DoneRisesAndFalls : Prop :=
  ∀ (s u : State), step s = .next u →
    ((s.doneOut = false ∧ u.doneOut = true) ↔ (s.coreNext = true ∧ s.phase = .final))
      ∧ (s.doneOut = true →
          (u.doneOut = false ↔
            s.resetNext = true ∨ s.commandNext 0x00000001 ∨ s.commandNext 0x00000002))

/-- R74, R276: during a run no sequence of host transactions changes the sequencer, the register files,
`MSG_LEN` or `MEM`; at most `ERR_CMD` and `ERR_BUSY` are set. -/
def Obligations.HostCannotDisturbRun : Prop :=
  ∀ (s : State), s.busy = true → s.inputs.all Input.isBus = true →
    ∃ u, core.run s.inputs.length s = .next u ∧ u.inputs = [] ∧ u.cfg = s.cfg
      ∧ SameSequencer s u ∧ SameHash s u ∧ SameMessage s u ∧ u.errLen = s.errLen
      ∧ (s.errCmd = true → u.errCmd = true) ∧ (s.errBusy = true → u.errBusy = true)

/-- R280: (`PHASE`, `STEP`, `KBLK`) over any number of steps depends on the sequencer, `MSG_LEN`,
`MSG_MEM_BYTES` and the events, not on the message bytes or any intermediate value. -/
def Obligations.ProgressIsDataIndependent : Prop :=
  ∀ (k : Nat) (s t : State), SameSequencer s t → SameSurroundings s t → t.msgLen = s.msgLen →
    ∃ u v, core.run k s = .next u ∧ core.run k t = .next v ∧ SameSequencer u v
      ∧ SameSurroundings u v ∧ v.msgLen = u.msgLen

/-! ## Runs

In a run with no event left the core has the turn (log 1). -/

/-- R278: an accepted START with block count `N` reaches DONE after exactly `115 N + 1` core
steps; until then the machine is busy, `STEP` stays in 0..63 and `KBLK` in 0..N. The premises are those
of an accepted START (R123) and a legal `MSG_MEM_BYTES` (R8). -/
def Obligations.RunReachesDone : Prop :=
  ∀ (s : State), s.cfg.wf = true → s.busy = false → s.msgLen.toNat ≤ s.cfg.cap →
    s.inputs = [Script.cmdStart] →
    ∃ v, step s = .next v
      ∧ (∀ k, k ≤ 115 * blockCount s.msgLen.toNat → ∃ u, core.run k v = .next u ∧ u.busy = true
          ∧ u.stepIdx.toNat ≤ 63 ∧ u.kblk.toNat ≤ blockCount s.msgLen.toNat)
      ∧ ∃ u, core.run (115 * blockCount s.msgLen.toNat + 1) v = .next u ∧ u.phase = .done
          ∧ u.stepIdx = 0 ∧ u.kblk = u.nblk ∧ u.nblk.toNat = blockCount s.msgLen.toNat

/-- The micro-stepped machine refines the source's `pad`, `expand`, `compress`, `finalize`
(R1, R150-R224): the run that an accepted START begins ends with the digest of the message in `MEM`, for
every message that the host has written. -/
def Obligations.RunComputesDigest : Prop :=
  ∀ (s : State) (msg : List Byte), s.cfg.wf = true → s.busy = false → msg.length ≤ s.cfg.cap →
    s.msgLen.toNat = msg.length → (∀ i, i < msg.length → s.mem.get? i = msg[i]?) →
    s.inputs = [Script.cmdStart] →
    ∃ u, core.run (1 + (115 * blockCount msg.length + 1)) s = .next u ∧ u.phase = .done
      ∧ u.dg = Contract.digest msg ∧ u.h = Contract.hashBlocks (Contract.pad msg) u.nblk.toNat
      ∧ SameFlags s u ∧ SameMessage s u

/-- R99: the expansion of LOADMSG stores the message at `MEM[0 .. n-1]` and changes no other byte and no
flag, from every state that is not busy. -/
def Obligations.LoadMsgStoresMessage : Prop :=
  ∀ (s : State) (msg : List Byte), s.cfg.wf = true → s.busy = false → msg.length ≤ s.cfg.cap →
    s.inputs = Script.loadMsg msg →
    ∃ u, core.run (Script.loadMsg msg).length s = .next u ∧ u.inputs = []
      ∧ (∀ i, i < msg.length → u.mem.get? i = msg[i]?)
      ∧ (∀ o, msg.length ≤ o → u.mem.get? o = s.mem.get? o)
      ∧ SameSequencer s u ∧ SameHash s u ∧ SameFlags s u ∧ u.msgLen = s.msgLen ∧ u.cfg = s.cfg

/-- The use sequence of R273. From every state that is not busy, LOADMSG, SETLEN and START,
then the core's turns, end in DONE with the message's digest, and the byte window reads it. -/
def Obligations.UseSequenceYieldsDigest : Prop :=
  ∀ (s : State) (msg : List Byte), s.cfg.wf = true → s.busy = false → msg.length ≤ s.cfg.cap →
    s.inputs = Script.loadMsg msg ++ [Script.setLen (BitVec.ofNat 32 msg.length), Script.cmdStart] →
    ∃ u, core.run (s.inputs.length + (115 * blockCount msg.length + 1)) s = .next u
      ∧ u.phase = .done ∧ u.errLen = s.errLen ∧ u.dg = Contract.digest msg
      ∧ ∀ q : Fin 8, ∃ v, exec (.rdDigestb q) u = .next v ∧ ∀ m : Fin 4,
          v.rdata.extractLsb' (8 * m.val) 8 = (Contract.digest msg)[4 * q.val + m.val]

/-- R73, R74: where the host's transactions fall among the core's turns does not matter: any
schedule of transactions and turns leaves the sequencer, the register files and the message as the turns
alone leave them, as long as the run has not ended. The turns alone are those the core has when no event waits (log 1). For
a message the host has written (R79). -/
def Obligations.InterleavingDoesNotMatter : Prop :=
  ∀ (s v : State), s.Inv → (∀ o, o < s.msgLen.toNat → (s.mem.get? o).isSome = true) →
    s.inputs.any Input.isReset = false →
    core.run (s.inputs.countP Input.isCore) (s.setInputs []) = .next v → v.busy = true →
    ∃ u, core.run s.inputs.length s = .next u ∧ u.inputs = [] ∧ SameSequencer v u ∧ SameHash v u
      ∧ SameMessage v u
end

