-- ==== Sys2Proof/Laws/Bits.lean ====
section
/-! SUPPORT. Byte lanes, big-endian words and nibbles: what each piece of a word is. -/

namespace Sys2Proof.Machine

/-- R170: `BE32` as a number, the first byte the most significant. -/
theorem be32_toNat (b0 b1 b2 b3 : Byte) :
    (be32 b0 b1 b2 b3).toNat = b0.toNat * 2 ^ 24 + b1.toNat * 2 ^ 16 + b2.toNat * 2 ^ 8 + b3.toNat := by
  have h0 := b0.isLt; have h1 := b1.isLt; have h2 := b2.isLt; have h3 := b3.isLt
  simp only [be32, BitVec.toNat_append]
  rw [← Nat.shiftLeft_add_eq_or_of_lt (by omega), ← Nat.shiftLeft_add_eq_or_of_lt (by omega),
    ← Nat.shiftLeft_add_eq_or_of_lt (by omega)]
  simp only [Nat.shiftLeft_eq]
  omega

theorem ofLanes_eq_be32 (b0 b1 b2 b3 : Byte) : ofLanes b0 b1 b2 b3 = be32 b3 b2 b1 b0 := rfl

/-- A byte field of a word as a number. -/
theorem extractByte_toNat (x : Word) (n : Nat) :
    (x.extractLsb' n 8).toNat = x.toNat / 2 ^ n % 256 := by
  simp [BitVec.extractLsb'_toNat, Nat.shiftRight_eq_div_pow]

theorem lane_toNat (x : Word) (m : Nat) : (lane x m).toNat = x.toNat / 2 ^ (8 * m) % 256 :=
  extractByte_toNat x (8 * m)

theorem beByte_toNat (x : Word) (m : Nat) : (beByte x m).toNat = x.toNat / 2 ^ (24 - 8 * m) % 256 := by
  simp only [beByte, BitVec.toNat_setWidth, BitVec.toNat_and, BitVec.toNat_ushiftRight,
    Nat.shiftRight_eq_div_pow]
  rw [show BitVec.toNat (255 : Word) = 2 ^ 8 - 1 from rfl, Nat.and_two_pow_sub_one_eq_mod]
  omega

end Sys2Proof.Machine
end

