-- ==== Sys2Proof/Laws/Constants.lean ====
section
/-! SUPPORT. What the integer cube root of R191 gives. -/

namespace Sys2Proof.Machine

/-- The search keeps its bracket: a root between `r` and `r + 2^b` is found exactly. -/
theorem cubeRootFrom_spec (x b r : Nat) (hlo : r ^ 3 ≤ x) (hhi : x < (r + 2 ^ b) ^ 3) :
    cubeRootFrom x b r ^ 3 ≤ x ∧ x < (cubeRootFrom x b r + 1) ^ 3 := by
  induction b generalizing r with
  | zero => exact ⟨hlo, by simpa [cubeRootFrom] using hhi⟩
  | succ b ih =>
    unfold cubeRootFrom
    split
    next h => exact ih _ h (by rwa [show r + 2 ^ b + 2 ^ b = r + 2 ^ (b + 1) by omega])
    next h => exact ih _ hlo (Nat.lt_of_not_le h)

theorem kPrimes_length : kPrimes.length = 64 := rfl

/-- Each table entry is the constant of its prime. -/
theorem kTable_getElem (i : Nat) (h : i < 64) :
    kTable[i] = roundConstOf (kPrimes[i]'(by rw [kPrimes_length]; exact h)) :=
  List.getElem_map roundConstOf

end Sys2Proof.Machine
end

