-- ==== Sys2Proof/Laws/Decode.lean ====
section
/-! SUPPORT. What the decoder selects, by the transaction's byte address as a number: the address map
of R70 as one lemma for reads and one for writes. -/

namespace Sys2Proof

/-- R64: aligning shifts the two low bits out. -/
theorem alignAddr_eq_shift (a : Word) : alignAddr a = (a >>> 2) <<< 2 := by
  apply BitVec.eq_of_getLsbD_eq
  intro i hi
  have hmask : (0xFFFFFFFC : Word).getLsbD i = decide (2 ≤ i) := by revert i; decide
  simp only [alignAddr, BitVec.getLsbD_and, hmask, BitVec.getLsbD_shiftLeft,
    BitVec.getLsbD_ushiftRight, hi, decide_true, Bool.true_and]
  by_cases h2 : 2 ≤ i
  · simp [h2, show 2 + (i - 2) = i by omega, show ¬ i < 2 by omega]
  · simp [h2, show i < 2 by omega]

theorem alignAddr_toNat (a : Word) : (alignAddr a).toNat = a.toNat / 4 * 4 := by
  have := a.isLt
  rw [alignAddr_eq_shift, BitVec.toNat_shiftLeft, BitVec.toNat_ushiftRight, Nat.shiftLeft_eq,
    Nat.shiftRight_eq_div_pow]
  omega

@[simp] theorem alignAddr_alignAddr (a : Word) : alignAddr (alignAddr a) = alignAddr a := by
  apply BitVec.eq_of_toNat_eq
  simp only [alignAddr_toNat]
  omega

/-- An aligned address is the word at `4k`. -/
theorem alignAddr_eq_iff (a : Word) (k : Nat) (hk : 4 * k < 2 ^ 32) :
    alignAddr a = BitVec.ofNat 32 (4 * k) ↔ 4 * k ≤ a.toNat ∧ a.toNat < 4 * k + 4 := by
  rw [← BitVec.toNat_inj, alignAddr_toNat, BitVec.toNat_ofNat, Nat.mod_eq_of_lt hk]
  omega

theorem Config.wf_iff (c : Config) :
    c.wf = true ↔ c.cap % 4 = 0 ∧ 4 ≤ c.cap ∧ c.cap ≤ 0xFFFFF000 := by
  simp [Config.wf, and_assoc]

theorem Config.inWindow_iff (c : Config) (a : Word) :
    c.inWindow a = true ↔ 0x1000 ≤ a.toNat ∧ a.toNat < 0x1000 + c.cap := by
  simp [Config.inWindow]

/-- The read that a byte address selects, in the order of R121. -/
theorem decodeRead_alignAddr (c : Config) (a : Word) :
    decodeRead c (alignAddr a) =
      if a.toNat < 0x004 then .rdId
      else if a.toNat < 0x008 then .rdCmd
      else if a.toNat < 0x00C then .rdStatus
      else if a.toNat < 0x010 then .rdMsgLen
      else if a.toNat < 0x014 then .rdBlocks
      else if a.toNat < 0x018 then .rdNblocks
      else if a.toNat < 0x01C then .rdMsgCap
      else if 0x020 ≤ a.toNat ∧ a.toNat < 0x040 then .rdDigest (Fin.ofNat 8 ((a.toNat - 0x020) / 4))
      else if 0x040 ≤ a.toNat ∧ a.toNat < 0x080 then .rdHex (Fin.ofNat 16 ((a.toNat - 0x040) / 4))
      else if 0x080 ≤ a.toNat ∧ a.toNat < 0x0A0 then
        .rdDigestb (Fin.ofNat 8 ((a.toNat - 0x080) / 4))
      else if c.inWindow (alignAddr a) then .rdMsg (alignAddr a - 0x1000)
      else .rdRsv (alignAddr a) := by
  have ht := alignAddr_toNat a
  have e0 : alignAddr a = 0x000 ↔ _ := alignAddr_eq_iff a 0 (by omega)
  have e1 : alignAddr a = 0x004 ↔ _ := alignAddr_eq_iff a 1 (by omega)
  have e2 : alignAddr a = 0x008 ↔ _ := alignAddr_eq_iff a 2 (by omega)
  have e3 : alignAddr a = 0x00C ↔ _ := alignAddr_eq_iff a 3 (by omega)
  have e4 : alignAddr a = 0x010 ↔ _ := alignAddr_eq_iff a 4 (by omega)
  have e5 : alignAddr a = 0x014 ↔ _ := alignAddr_eq_iff a 5 (by omega)
  have e6 : alignAddr a = 0x018 ↔ _ := alignAddr_eq_iff a 6 (by omega)
  have r1 : (0x020 ≤ alignAddr a ∧ alignAddr a ≤ 0x03C) ↔ 0x020 ≤ a.toNat ∧ a.toNat < 0x040 := by
    rw [BitVec.le_def, BitVec.le_def, ht]
    exact ⟨fun h => by have := h.1; have := h.2; simp at *; omega, fun h => by simp; omega⟩
  have r2 : (0x040 ≤ alignAddr a ∧ alignAddr a ≤ 0x07C) ↔ 0x040 ≤ a.toNat ∧ a.toNat < 0x080 := by
    rw [BitVec.le_def, BitVec.le_def, ht]
    exact ⟨fun h => by have := h.1; have := h.2; simp at *; omega, fun h => by simp; omega⟩
  have r3 : (0x080 ≤ alignAddr a ∧ alignAddr a ≤ 0x09C) ↔ 0x080 ≤ a.toNat ∧ a.toNat < 0x0A0 := by
    rw [BitVec.le_def, BitVec.le_def, ht]
    exact ⟨fun h => by have := h.1; have := h.2; simp at *; omega, fun h => by simp; omega⟩
  refine ite_congr (propext (e0.trans (by omega))) (fun _ => rfl) fun h0 => ?_
  refine ite_congr (propext (e1.trans (by omega))) (fun _ => rfl) fun h1 => ?_
  refine ite_congr (propext (e2.trans (by omega))) (fun _ => rfl) fun h2 => ?_
  refine ite_congr (propext (e3.trans (by omega))) (fun _ => rfl) fun h3 => ?_
  refine ite_congr (propext (e4.trans (by omega))) (fun _ => rfl) fun h4 => ?_
  refine ite_congr (propext (e5.trans (by omega))) (fun _ => rfl) fun h5 => ?_
  refine ite_congr (propext (e6.trans (by omega))) (fun _ => rfl) fun h6 => ?_
  refine ite_congr (propext r1) (fun h => ?_) fun h7 => ?_
  · rw [show ((alignAddr a).toNat - 0x020) / 4 = (a.toNat - 0x020) / 4 by omega]
  refine ite_congr (propext r2) (fun h => ?_) fun h8 => ?_
  · rw [show ((alignAddr a).toNat - 0x040) / 4 = (a.toNat - 0x040) / 4 by omega]
  refine ite_congr (propext r3) (fun h => ?_) fun h9 => rfl
  rw [show ((alignAddr a).toNat - 0x080) / 4 = (a.toNat - 0x080) / 4 by omega]

/-- The write that a byte address selects, in the order of the table. -/
theorem decodeWrite_alignAddr (c : Config) (a d : Word) (s : Strobe) :
    decodeWrite c (alignAddr a) d s =
      if a.toNat < 0x004 then .wrId d s
      else if a.toNat < 0x008 then .wrCmd d s
      else if a.toNat < 0x00C then .wrStatus d s
      else if a.toNat < 0x010 then .wrMsgLen d s
      else if a.toNat < 0x014 then .wrBlocks d s
      else if a.toNat < 0x018 then .wrNblocks d s
      else if a.toNat < 0x01C then .wrMsgCap d s
      else if 0x020 ≤ a.toNat ∧ a.toNat < 0x040 then
        .wrDigest (Fin.ofNat 8 ((a.toNat - 0x020) / 4)) d s
      else if 0x040 ≤ a.toNat ∧ a.toNat < 0x080 then
        .wrHex (Fin.ofNat 16 ((a.toNat - 0x040) / 4)) d s
      else if 0x080 ≤ a.toNat ∧ a.toNat < 0x0A0 then
        .wrDigestb (Fin.ofNat 8 ((a.toNat - 0x080) / 4)) d s
      else if c.inWindow (alignAddr a) then .wrMsg (alignAddr a - 0x1000) d s
      else .wrRsv (alignAddr a) d s := by
  have ht := alignAddr_toNat a
  have e0 : alignAddr a = 0x000 ↔ _ := alignAddr_eq_iff a 0 (by omega)
  have e1 : alignAddr a = 0x004 ↔ _ := alignAddr_eq_iff a 1 (by omega)
  have e2 : alignAddr a = 0x008 ↔ _ := alignAddr_eq_iff a 2 (by omega)
  have e3 : alignAddr a = 0x00C ↔ _ := alignAddr_eq_iff a 3 (by omega)
  have e4 : alignAddr a = 0x010 ↔ _ := alignAddr_eq_iff a 4 (by omega)
  have e5 : alignAddr a = 0x014 ↔ _ := alignAddr_eq_iff a 5 (by omega)
  have e6 : alignAddr a = 0x018 ↔ _ := alignAddr_eq_iff a 6 (by omega)
  have r1 : (0x020 ≤ alignAddr a ∧ alignAddr a ≤ 0x03C) ↔ 0x020 ≤ a.toNat ∧ a.toNat < 0x040 := by
    rw [BitVec.le_def, BitVec.le_def, ht]
    exact ⟨fun h => by have := h.1; have := h.2; simp at *; omega, fun h => by simp; omega⟩
  have r2 : (0x040 ≤ alignAddr a ∧ alignAddr a ≤ 0x07C) ↔ 0x040 ≤ a.toNat ∧ a.toNat < 0x080 := by
    rw [BitVec.le_def, BitVec.le_def, ht]
    exact ⟨fun h => by have := h.1; have := h.2; simp at *; omega, fun h => by simp; omega⟩
  have r3 : (0x080 ≤ alignAddr a ∧ alignAddr a ≤ 0x09C) ↔ 0x080 ≤ a.toNat ∧ a.toNat < 0x0A0 := by
    rw [BitVec.le_def, BitVec.le_def, ht]
    exact ⟨fun h => by have := h.1; have := h.2; simp at *; omega, fun h => by simp; omega⟩
  refine ite_congr (propext (e0.trans (by omega))) (fun _ => rfl) fun h0 => ?_
  refine ite_congr (propext (e1.trans (by omega))) (fun _ => rfl) fun h1 => ?_
  refine ite_congr (propext (e2.trans (by omega))) (fun _ => rfl) fun h2 => ?_
  refine ite_congr (propext (e3.trans (by omega))) (fun _ => rfl) fun h3 => ?_
  refine ite_congr (propext (e4.trans (by omega))) (fun _ => rfl) fun h4 => ?_
  refine ite_congr (propext (e5.trans (by omega))) (fun _ => rfl) fun h5 => ?_
  refine ite_congr (propext (e6.trans (by omega))) (fun _ => rfl) fun h6 => ?_
  refine ite_congr (propext r1) (fun h => ?_) fun h7 => ?_
  · rw [show ((alignAddr a).toNat - 0x020) / 4 = (a.toNat - 0x020) / 4 by omega]
  refine ite_congr (propext r2) (fun h => ?_) fun h8 => ?_
  · rw [show ((alignAddr a).toNat - 0x040) / 4 = (a.toNat - 0x040) / 4 by omega]
  refine ite_congr (propext r3) (fun h => ?_) fun h9 => rfl
  rw [show ((alignAddr a).toNat - 0x080) / 4 = (a.toNat - 0x080) / 4 by omega]

/-- A read in the message window. -/
theorem decodeRead_window (c : Config) (a : Word) (h : c.inWindow (alignAddr a) = true) :
    decodeRead c (alignAddr a) = .rdMsg (alignAddr a - 0x1000) := by
  have hlow := ((Config.inWindow_iff c _).1 h).1
  have ha := alignAddr_toNat a
  rw [decodeRead_alignAddr]
  repeat rw [if_neg (by omega)]
  rw [if_pos h]

/-- A write in the message window. -/
theorem decodeWrite_window (c : Config) (a d : Word) (s : Strobe)
    (h : c.inWindow (alignAddr a) = true) :
    decodeWrite c (alignAddr a) d s = .wrMsg (alignAddr a - 0x1000) d s := by
  have hlow := ((Config.inWindow_iff c _).1 h).1
  have ha := alignAddr_toNat a
  rw [decodeWrite_alignAddr]
  repeat rw [if_neg (by omega)]
  rw [if_pos h]

end Sys2Proof
end

