-- ==== Sys2Proof/Laws/State.lean ====
section
/-! SUPPORT. One lemma for each field under each update of the state, so that no proof unfolds a record
update. -/

namespace Sys2Proof.Machine

/-! ### `goTo` -/

@[simp] theorem State.goTo_cfg (s : State) (p : Phase) (t : BitVec 7) : (s.goTo p t).cfg = s.cfg := rfl
@[simp] theorem State.goTo_h (s : State) (p : Phase) (t : BitVec 7) : (s.goTo p t).h = s.h := rfl
@[simp] theorem State.goTo_a (s : State) (p : Phase) (t : BitVec 7) : (s.goTo p t).a = s.a := rfl
@[simp] theorem State.goTo_w (s : State) (p : Phase) (t : BitVec 7) : (s.goTo p t).w = s.w := rfl
@[simp] theorem State.goTo_phase (s : State) (p : Phase) (t : BitVec 7) : (s.goTo p t).phase = p := rfl
@[simp] theorem State.goTo_stepIdx (s : State) (p : Phase) (t : BitVec 7) : (s.goTo p t).stepIdx = t := rfl
@[simp] theorem State.goTo_kblk (s : State) (p : Phase) (t : BitVec 7) : (s.goTo p t).kblk = s.kblk := rfl
@[simp] theorem State.goTo_nblk (s : State) (p : Phase) (t : BitVec 7) : (s.goTo p t).nblk = s.nblk := rfl
@[simp] theorem State.goTo_dg (s : State) (p : Phase) (t : BitVec 7) : (s.goTo p t).dg = s.dg := rfl
@[simp] theorem State.goTo_msgLen (s : State) (p : Phase) (t : BitVec 7) : (s.goTo p t).msgLen = s.msgLen := rfl
@[simp] theorem State.goTo_errCmd (s : State) (p : Phase) (t : BitVec 7) : (s.goTo p t).errCmd = s.errCmd := rfl
@[simp] theorem State.goTo_errBusy (s : State) (p : Phase) (t : BitVec 7) : (s.goTo p t).errBusy = s.errBusy := rfl
@[simp] theorem State.goTo_errLen (s : State) (p : Phase) (t : BitVec 7) : (s.goTo p t).errLen = s.errLen := rfl
@[simp] theorem State.goTo_mem (s : State) (p : Phase) (t : BitVec 7) : (s.goTo p t).mem = s.mem := rfl
@[simp] theorem State.goTo_rdata (s : State) (p : Phase) (t : BitVec 7) : (s.goTo p t).rdata = s.rdata := rfl
@[simp] theorem State.goTo_inputs (s : State) (p : Phase) (t : BitVec 7) : (s.goTo p t).inputs = s.inputs := rfl
@[simp] theorem State.goTo_draws (s : State) (p : Phase) (t : BitVec 7) : (s.goTo p t).draws = s.draws := rfl

/-! ### `setBlocks` -/

@[simp] theorem State.setBlocks_cfg (s : State) (k n : Word) : (s.setBlocks k n).cfg = s.cfg := rfl
@[simp] theorem State.setBlocks_h (s : State) (k n : Word) : (s.setBlocks k n).h = s.h := rfl
@[simp] theorem State.setBlocks_a (s : State) (k n : Word) : (s.setBlocks k n).a = s.a := rfl
@[simp] theorem State.setBlocks_w (s : State) (k n : Word) : (s.setBlocks k n).w = s.w := rfl
@[simp] theorem State.setBlocks_phase (s : State) (k n : Word) : (s.setBlocks k n).phase = s.phase := rfl
@[simp] theorem State.setBlocks_stepIdx (s : State) (k n : Word) : (s.setBlocks k n).stepIdx = s.stepIdx := rfl
@[simp] theorem State.setBlocks_kblk (s : State) (k n : Word) : (s.setBlocks k n).kblk = k := rfl
@[simp] theorem State.setBlocks_nblk (s : State) (k n : Word) : (s.setBlocks k n).nblk = n := rfl
@[simp] theorem State.setBlocks_dg (s : State) (k n : Word) : (s.setBlocks k n).dg = s.dg := rfl
@[simp] theorem State.setBlocks_msgLen (s : State) (k n : Word) : (s.setBlocks k n).msgLen = s.msgLen := rfl
@[simp] theorem State.setBlocks_errCmd (s : State) (k n : Word) : (s.setBlocks k n).errCmd = s.errCmd := rfl
@[simp] theorem State.setBlocks_errBusy (s : State) (k n : Word) : (s.setBlocks k n).errBusy = s.errBusy := rfl
@[simp] theorem State.setBlocks_errLen (s : State) (k n : Word) : (s.setBlocks k n).errLen = s.errLen := rfl
@[simp] theorem State.setBlocks_mem (s : State) (k n : Word) : (s.setBlocks k n).mem = s.mem := rfl
@[simp] theorem State.setBlocks_rdata (s : State) (k n : Word) : (s.setBlocks k n).rdata = s.rdata := rfl
@[simp] theorem State.setBlocks_inputs (s : State) (k n : Word) : (s.setBlocks k n).inputs = s.inputs := rfl
@[simp] theorem State.setBlocks_draws (s : State) (k n : Word) : (s.setBlocks k n).draws = s.draws := rfl

/-! ### `setH` -/

@[simp] theorem State.setH_cfg (s : State) (v : Vector Word 8) : (s.setH v).cfg = s.cfg := rfl
@[simp] theorem State.setH_h (s : State) (v : Vector Word 8) : (s.setH v).h = v := rfl
@[simp] theorem State.setH_a (s : State) (v : Vector Word 8) : (s.setH v).a = s.a := rfl
@[simp] theorem State.setH_w (s : State) (v : Vector Word 8) : (s.setH v).w = s.w := rfl
@[simp] theorem State.setH_phase (s : State) (v : Vector Word 8) : (s.setH v).phase = s.phase := rfl
@[simp] theorem State.setH_stepIdx (s : State) (v : Vector Word 8) : (s.setH v).stepIdx = s.stepIdx := rfl
@[simp] theorem State.setH_kblk (s : State) (v : Vector Word 8) : (s.setH v).kblk = s.kblk := rfl
@[simp] theorem State.setH_nblk (s : State) (v : Vector Word 8) : (s.setH v).nblk = s.nblk := rfl
@[simp] theorem State.setH_dg (s : State) (v : Vector Word 8) : (s.setH v).dg = s.dg := rfl
@[simp] theorem State.setH_msgLen (s : State) (v : Vector Word 8) : (s.setH v).msgLen = s.msgLen := rfl
@[simp] theorem State.setH_errCmd (s : State) (v : Vector Word 8) : (s.setH v).errCmd = s.errCmd := rfl
@[simp] theorem State.setH_errBusy (s : State) (v : Vector Word 8) : (s.setH v).errBusy = s.errBusy := rfl
@[simp] theorem State.setH_errLen (s : State) (v : Vector Word 8) : (s.setH v).errLen = s.errLen := rfl
@[simp] theorem State.setH_mem (s : State) (v : Vector Word 8) : (s.setH v).mem = s.mem := rfl
@[simp] theorem State.setH_rdata (s : State) (v : Vector Word 8) : (s.setH v).rdata = s.rdata := rfl
@[simp] theorem State.setH_inputs (s : State) (v : Vector Word 8) : (s.setH v).inputs = s.inputs := rfl
@[simp] theorem State.setH_draws (s : State) (v : Vector Word 8) : (s.setH v).draws = s.draws := rfl

/-! ### `setA` -/

@[simp] theorem State.setA_cfg (s : State) (v : Vector Word 8) : (s.setA v).cfg = s.cfg := rfl
@[simp] theorem State.setA_h (s : State) (v : Vector Word 8) : (s.setA v).h = s.h := rfl
@[simp] theorem State.setA_a (s : State) (v : Vector Word 8) : (s.setA v).a = v := rfl
@[simp] theorem State.setA_w (s : State) (v : Vector Word 8) : (s.setA v).w = s.w := rfl
@[simp] theorem State.setA_phase (s : State) (v : Vector Word 8) : (s.setA v).phase = s.phase := rfl
@[simp] theorem State.setA_stepIdx (s : State) (v : Vector Word 8) : (s.setA v).stepIdx = s.stepIdx := rfl
@[simp] theorem State.setA_kblk (s : State) (v : Vector Word 8) : (s.setA v).kblk = s.kblk := rfl
@[simp] theorem State.setA_nblk (s : State) (v : Vector Word 8) : (s.setA v).nblk = s.nblk := rfl
@[simp] theorem State.setA_dg (s : State) (v : Vector Word 8) : (s.setA v).dg = s.dg := rfl
@[simp] theorem State.setA_msgLen (s : State) (v : Vector Word 8) : (s.setA v).msgLen = s.msgLen := rfl
@[simp] theorem State.setA_errCmd (s : State) (v : Vector Word 8) : (s.setA v).errCmd = s.errCmd := rfl
@[simp] theorem State.setA_errBusy (s : State) (v : Vector Word 8) : (s.setA v).errBusy = s.errBusy := rfl
@[simp] theorem State.setA_errLen (s : State) (v : Vector Word 8) : (s.setA v).errLen = s.errLen := rfl
@[simp] theorem State.setA_mem (s : State) (v : Vector Word 8) : (s.setA v).mem = s.mem := rfl
@[simp] theorem State.setA_rdata (s : State) (v : Vector Word 8) : (s.setA v).rdata = s.rdata := rfl
@[simp] theorem State.setA_inputs (s : State) (v : Vector Word 8) : (s.setA v).inputs = s.inputs := rfl
@[simp] theorem State.setA_draws (s : State) (v : Vector Word 8) : (s.setA v).draws = s.draws := rfl

/-! ### `setW` -/

@[simp] theorem State.setW_cfg (s : State) (v : Vector Word 64) : (s.setW v).cfg = s.cfg := rfl
@[simp] theorem State.setW_h (s : State) (v : Vector Word 64) : (s.setW v).h = s.h := rfl
@[simp] theorem State.setW_a (s : State) (v : Vector Word 64) : (s.setW v).a = s.a := rfl
@[simp] theorem State.setW_w (s : State) (v : Vector Word 64) : (s.setW v).w = v := rfl
@[simp] theorem State.setW_phase (s : State) (v : Vector Word 64) : (s.setW v).phase = s.phase := rfl
@[simp] theorem State.setW_stepIdx (s : State) (v : Vector Word 64) : (s.setW v).stepIdx = s.stepIdx := rfl
@[simp] theorem State.setW_kblk (s : State) (v : Vector Word 64) : (s.setW v).kblk = s.kblk := rfl
@[simp] theorem State.setW_nblk (s : State) (v : Vector Word 64) : (s.setW v).nblk = s.nblk := rfl
@[simp] theorem State.setW_dg (s : State) (v : Vector Word 64) : (s.setW v).dg = s.dg := rfl
@[simp] theorem State.setW_msgLen (s : State) (v : Vector Word 64) : (s.setW v).msgLen = s.msgLen := rfl
@[simp] theorem State.setW_errCmd (s : State) (v : Vector Word 64) : (s.setW v).errCmd = s.errCmd := rfl
@[simp] theorem State.setW_errBusy (s : State) (v : Vector Word 64) : (s.setW v).errBusy = s.errBusy := rfl
@[simp] theorem State.setW_errLen (s : State) (v : Vector Word 64) : (s.setW v).errLen = s.errLen := rfl
@[simp] theorem State.setW_mem (s : State) (v : Vector Word 64) : (s.setW v).mem = s.mem := rfl
@[simp] theorem State.setW_rdata (s : State) (v : Vector Word 64) : (s.setW v).rdata = s.rdata := rfl
@[simp] theorem State.setW_inputs (s : State) (v : Vector Word 64) : (s.setW v).inputs = s.inputs := rfl
@[simp] theorem State.setW_draws (s : State) (v : Vector Word 64) : (s.setW v).draws = s.draws := rfl

/-! ### `setDg` -/

@[simp] theorem State.setDg_cfg (s : State) (v : Vector Byte 32) : (s.setDg v).cfg = s.cfg := rfl
@[simp] theorem State.setDg_h (s : State) (v : Vector Byte 32) : (s.setDg v).h = s.h := rfl
@[simp] theorem State.setDg_a (s : State) (v : Vector Byte 32) : (s.setDg v).a = s.a := rfl
@[simp] theorem State.setDg_w (s : State) (v : Vector Byte 32) : (s.setDg v).w = s.w := rfl
@[simp] theorem State.setDg_phase (s : State) (v : Vector Byte 32) : (s.setDg v).phase = s.phase := rfl
@[simp] theorem State.setDg_stepIdx (s : State) (v : Vector Byte 32) : (s.setDg v).stepIdx = s.stepIdx := rfl
@[simp] theorem State.setDg_kblk (s : State) (v : Vector Byte 32) : (s.setDg v).kblk = s.kblk := rfl
@[simp] theorem State.setDg_nblk (s : State) (v : Vector Byte 32) : (s.setDg v).nblk = s.nblk := rfl
@[simp] theorem State.setDg_dg (s : State) (v : Vector Byte 32) : (s.setDg v).dg = v := rfl
@[simp] theorem State.setDg_msgLen (s : State) (v : Vector Byte 32) : (s.setDg v).msgLen = s.msgLen := rfl
@[simp] theorem State.setDg_errCmd (s : State) (v : Vector Byte 32) : (s.setDg v).errCmd = s.errCmd := rfl
@[simp] theorem State.setDg_errBusy (s : State) (v : Vector Byte 32) : (s.setDg v).errBusy = s.errBusy := rfl
@[simp] theorem State.setDg_errLen (s : State) (v : Vector Byte 32) : (s.setDg v).errLen = s.errLen := rfl
@[simp] theorem State.setDg_mem (s : State) (v : Vector Byte 32) : (s.setDg v).mem = s.mem := rfl
@[simp] theorem State.setDg_rdata (s : State) (v : Vector Byte 32) : (s.setDg v).rdata = s.rdata := rfl
@[simp] theorem State.setDg_inputs (s : State) (v : Vector Byte 32) : (s.setDg v).inputs = s.inputs := rfl
@[simp] theorem State.setDg_draws (s : State) (v : Vector Byte 32) : (s.setDg v).draws = s.draws := rfl

/-! ### `setMsgLen` -/

@[simp] theorem State.setMsgLen_cfg (s : State) (d : Word) : (s.setMsgLen d).cfg = s.cfg := rfl
@[simp] theorem State.setMsgLen_h (s : State) (d : Word) : (s.setMsgLen d).h = s.h := rfl
@[simp] theorem State.setMsgLen_a (s : State) (d : Word) : (s.setMsgLen d).a = s.a := rfl
@[simp] theorem State.setMsgLen_w (s : State) (d : Word) : (s.setMsgLen d).w = s.w := rfl
@[simp] theorem State.setMsgLen_phase (s : State) (d : Word) : (s.setMsgLen d).phase = s.phase := rfl
@[simp] theorem State.setMsgLen_stepIdx (s : State) (d : Word) : (s.setMsgLen d).stepIdx = s.stepIdx := rfl
@[simp] theorem State.setMsgLen_kblk (s : State) (d : Word) : (s.setMsgLen d).kblk = s.kblk := rfl
@[simp] theorem State.setMsgLen_nblk (s : State) (d : Word) : (s.setMsgLen d).nblk = s.nblk := rfl
@[simp] theorem State.setMsgLen_dg (s : State) (d : Word) : (s.setMsgLen d).dg = s.dg := rfl
@[simp] theorem State.setMsgLen_msgLen (s : State) (d : Word) : (s.setMsgLen d).msgLen = d := rfl
@[simp] theorem State.setMsgLen_errCmd (s : State) (d : Word) : (s.setMsgLen d).errCmd = s.errCmd := rfl
@[simp] theorem State.setMsgLen_errBusy (s : State) (d : Word) : (s.setMsgLen d).errBusy = s.errBusy := rfl
@[simp] theorem State.setMsgLen_errLen (s : State) (d : Word) : (s.setMsgLen d).errLen = s.errLen := rfl
@[simp] theorem State.setMsgLen_mem (s : State) (d : Word) : (s.setMsgLen d).mem = s.mem := rfl
@[simp] theorem State.setMsgLen_rdata (s : State) (d : Word) : (s.setMsgLen d).rdata = s.rdata := rfl
@[simp] theorem State.setMsgLen_inputs (s : State) (d : Word) : (s.setMsgLen d).inputs = s.inputs := rfl
@[simp] theorem State.setMsgLen_draws (s : State) (d : Word) : (s.setMsgLen d).draws = s.draws := rfl

/-! ### `setMem` -/

@[simp] theorem State.setMem_cfg (s : State) (m : Memory) : (s.setMem m).cfg = s.cfg := rfl
@[simp] theorem State.setMem_h (s : State) (m : Memory) : (s.setMem m).h = s.h := rfl
@[simp] theorem State.setMem_a (s : State) (m : Memory) : (s.setMem m).a = s.a := rfl
@[simp] theorem State.setMem_w (s : State) (m : Memory) : (s.setMem m).w = s.w := rfl
@[simp] theorem State.setMem_phase (s : State) (m : Memory) : (s.setMem m).phase = s.phase := rfl
@[simp] theorem State.setMem_stepIdx (s : State) (m : Memory) : (s.setMem m).stepIdx = s.stepIdx := rfl
@[simp] theorem State.setMem_kblk (s : State) (m : Memory) : (s.setMem m).kblk = s.kblk := rfl
@[simp] theorem State.setMem_nblk (s : State) (m : Memory) : (s.setMem m).nblk = s.nblk := rfl
@[simp] theorem State.setMem_dg (s : State) (m : Memory) : (s.setMem m).dg = s.dg := rfl
@[simp] theorem State.setMem_msgLen (s : State) (m : Memory) : (s.setMem m).msgLen = s.msgLen := rfl
@[simp] theorem State.setMem_errCmd (s : State) (m : Memory) : (s.setMem m).errCmd = s.errCmd := rfl
@[simp] theorem State.setMem_errBusy (s : State) (m : Memory) : (s.setMem m).errBusy = s.errBusy := rfl
@[simp] theorem State.setMem_errLen (s : State) (m : Memory) : (s.setMem m).errLen = s.errLen := rfl
@[simp] theorem State.setMem_mem (s : State) (m : Memory) : (s.setMem m).mem = m := rfl
@[simp] theorem State.setMem_rdata (s : State) (m : Memory) : (s.setMem m).rdata = s.rdata := rfl
@[simp] theorem State.setMem_inputs (s : State) (m : Memory) : (s.setMem m).inputs = s.inputs := rfl
@[simp] theorem State.setMem_draws (s : State) (m : Memory) : (s.setMem m).draws = s.draws := rfl

/-! ### `setRdata` -/

@[simp] theorem State.setRdata_cfg (s : State) (d : Word) : (s.setRdata d).cfg = s.cfg := rfl
@[simp] theorem State.setRdata_h (s : State) (d : Word) : (s.setRdata d).h = s.h := rfl
@[simp] theorem State.setRdata_a (s : State) (d : Word) : (s.setRdata d).a = s.a := rfl
@[simp] theorem State.setRdata_w (s : State) (d : Word) : (s.setRdata d).w = s.w := rfl
@[simp] theorem State.setRdata_phase (s : State) (d : Word) : (s.setRdata d).phase = s.phase := rfl
@[simp] theorem State.setRdata_stepIdx (s : State) (d : Word) : (s.setRdata d).stepIdx = s.stepIdx := rfl
@[simp] theorem State.setRdata_kblk (s : State) (d : Word) : (s.setRdata d).kblk = s.kblk := rfl
@[simp] theorem State.setRdata_nblk (s : State) (d : Word) : (s.setRdata d).nblk = s.nblk := rfl
@[simp] theorem State.setRdata_dg (s : State) (d : Word) : (s.setRdata d).dg = s.dg := rfl
@[simp] theorem State.setRdata_msgLen (s : State) (d : Word) : (s.setRdata d).msgLen = s.msgLen := rfl
@[simp] theorem State.setRdata_errCmd (s : State) (d : Word) : (s.setRdata d).errCmd = s.errCmd := rfl
@[simp] theorem State.setRdata_errBusy (s : State) (d : Word) : (s.setRdata d).errBusy = s.errBusy := rfl
@[simp] theorem State.setRdata_errLen (s : State) (d : Word) : (s.setRdata d).errLen = s.errLen := rfl
@[simp] theorem State.setRdata_mem (s : State) (d : Word) : (s.setRdata d).mem = s.mem := rfl
@[simp] theorem State.setRdata_rdata (s : State) (d : Word) : (s.setRdata d).rdata = d := rfl
@[simp] theorem State.setRdata_inputs (s : State) (d : Word) : (s.setRdata d).inputs = s.inputs := rfl
@[simp] theorem State.setRdata_draws (s : State) (d : Word) : (s.setRdata d).draws = s.draws := rfl

/-! ### `setInputs` -/

@[simp] theorem State.setInputs_cfg (s : State) (is : List Input) : (s.setInputs is).cfg = s.cfg := rfl
@[simp] theorem State.setInputs_h (s : State) (is : List Input) : (s.setInputs is).h = s.h := rfl
@[simp] theorem State.setInputs_a (s : State) (is : List Input) : (s.setInputs is).a = s.a := rfl
@[simp] theorem State.setInputs_w (s : State) (is : List Input) : (s.setInputs is).w = s.w := rfl
@[simp] theorem State.setInputs_phase (s : State) (is : List Input) : (s.setInputs is).phase = s.phase := rfl
@[simp] theorem State.setInputs_stepIdx (s : State) (is : List Input) : (s.setInputs is).stepIdx = s.stepIdx := rfl
@[simp] theorem State.setInputs_kblk (s : State) (is : List Input) : (s.setInputs is).kblk = s.kblk := rfl
@[simp] theorem State.setInputs_nblk (s : State) (is : List Input) : (s.setInputs is).nblk = s.nblk := rfl
@[simp] theorem State.setInputs_dg (s : State) (is : List Input) : (s.setInputs is).dg = s.dg := rfl
@[simp] theorem State.setInputs_msgLen (s : State) (is : List Input) : (s.setInputs is).msgLen = s.msgLen := rfl
@[simp] theorem State.setInputs_errCmd (s : State) (is : List Input) : (s.setInputs is).errCmd = s.errCmd := rfl
@[simp] theorem State.setInputs_errBusy (s : State) (is : List Input) : (s.setInputs is).errBusy = s.errBusy := rfl
@[simp] theorem State.setInputs_errLen (s : State) (is : List Input) : (s.setInputs is).errLen = s.errLen := rfl
@[simp] theorem State.setInputs_mem (s : State) (is : List Input) : (s.setInputs is).mem = s.mem := rfl
@[simp] theorem State.setInputs_rdata (s : State) (is : List Input) : (s.setInputs is).rdata = s.rdata := rfl
@[simp] theorem State.setInputs_inputs (s : State) (is : List Input) : (s.setInputs is).inputs = is := rfl
@[simp] theorem State.setInputs_draws (s : State) (is : List Input) : (s.setInputs is).draws = s.draws := rfl

/-! ### `draw` -/

@[simp] theorem State.draw_cfg (s : State) (n : Nat) : (s.draw n).cfg = s.cfg := rfl
@[simp] theorem State.draw_h (s : State) (n : Nat) : (s.draw n).h = s.h := rfl
@[simp] theorem State.draw_a (s : State) (n : Nat) : (s.draw n).a = s.a := rfl
@[simp] theorem State.draw_w (s : State) (n : Nat) : (s.draw n).w = s.w := rfl
@[simp] theorem State.draw_phase (s : State) (n : Nat) : (s.draw n).phase = s.phase := rfl
@[simp] theorem State.draw_stepIdx (s : State) (n : Nat) : (s.draw n).stepIdx = s.stepIdx := rfl
@[simp] theorem State.draw_kblk (s : State) (n : Nat) : (s.draw n).kblk = s.kblk := rfl
@[simp] theorem State.draw_nblk (s : State) (n : Nat) : (s.draw n).nblk = s.nblk := rfl
@[simp] theorem State.draw_dg (s : State) (n : Nat) : (s.draw n).dg = s.dg := rfl
@[simp] theorem State.draw_msgLen (s : State) (n : Nat) : (s.draw n).msgLen = s.msgLen := rfl
@[simp] theorem State.draw_errCmd (s : State) (n : Nat) : (s.draw n).errCmd = s.errCmd := rfl
@[simp] theorem State.draw_errBusy (s : State) (n : Nat) : (s.draw n).errBusy = s.errBusy := rfl
@[simp] theorem State.draw_errLen (s : State) (n : Nat) : (s.draw n).errLen = s.errLen := rfl
@[simp] theorem State.draw_mem (s : State) (n : Nat) : (s.draw n).mem = s.mem := rfl
@[simp] theorem State.draw_rdata (s : State) (n : Nat) : (s.draw n).rdata = s.rdata := rfl
@[simp] theorem State.draw_inputs (s : State) (n : Nat) : (s.draw n).inputs = s.inputs := rfl
@[simp] theorem State.draw_draws (s : State) (n : Nat) : (s.draw n).draws = s.draws + n := rfl

/-! ### `clearFlags` -/

@[simp] theorem State.clearFlags_cfg (s : State) : (s.clearFlags).cfg = s.cfg := rfl
@[simp] theorem State.clearFlags_h (s : State) : (s.clearFlags).h = s.h := rfl
@[simp] theorem State.clearFlags_a (s : State) : (s.clearFlags).a = s.a := rfl
@[simp] theorem State.clearFlags_w (s : State) : (s.clearFlags).w = s.w := rfl
@[simp] theorem State.clearFlags_phase (s : State) : (s.clearFlags).phase = s.phase := rfl
@[simp] theorem State.clearFlags_stepIdx (s : State) : (s.clearFlags).stepIdx = s.stepIdx := rfl
@[simp] theorem State.clearFlags_kblk (s : State) : (s.clearFlags).kblk = s.kblk := rfl
@[simp] theorem State.clearFlags_nblk (s : State) : (s.clearFlags).nblk = s.nblk := rfl
@[simp] theorem State.clearFlags_dg (s : State) : (s.clearFlags).dg = s.dg := rfl
@[simp] theorem State.clearFlags_msgLen (s : State) : (s.clearFlags).msgLen = s.msgLen := rfl
@[simp] theorem State.clearFlags_errCmd (s : State) : (s.clearFlags).errCmd = false := rfl
@[simp] theorem State.clearFlags_errBusy (s : State) : (s.clearFlags).errBusy = false := rfl
@[simp] theorem State.clearFlags_errLen (s : State) : (s.clearFlags).errLen = false := rfl
@[simp] theorem State.clearFlags_mem (s : State) : (s.clearFlags).mem = s.mem := rfl
@[simp] theorem State.clearFlags_rdata (s : State) : (s.clearFlags).rdata = s.rdata := rfl
@[simp] theorem State.clearFlags_inputs (s : State) : (s.clearFlags).inputs = s.inputs := rfl
@[simp] theorem State.clearFlags_draws (s : State) : (s.clearFlags).draws = s.draws := rfl

/-! ### `onReset` -/

@[simp] theorem State.onReset_cfg (s : State) : (s.onReset).cfg = s.cfg := rfl
@[simp] theorem State.onReset_h (s : State) : (s.onReset).h = Vector.replicate 8 0 := rfl
@[simp] theorem State.onReset_a (s : State) : (s.onReset).a = Vector.replicate 8 0 := rfl
@[simp] theorem State.onReset_w (s : State) : (s.onReset).w = Vector.replicate 64 0 := rfl
@[simp] theorem State.onReset_phase (s : State) : (s.onReset).phase = .idle := rfl
@[simp] theorem State.onReset_stepIdx (s : State) : (s.onReset).stepIdx = 0 := rfl
@[simp] theorem State.onReset_kblk (s : State) : (s.onReset).kblk = 0 := rfl
@[simp] theorem State.onReset_nblk (s : State) : (s.onReset).nblk = 0 := rfl
@[simp] theorem State.onReset_dg (s : State) : (s.onReset).dg = Vector.replicate 32 0 := rfl
@[simp] theorem State.onReset_msgLen (s : State) : (s.onReset).msgLen = 0 := rfl
@[simp] theorem State.onReset_errCmd (s : State) : (s.onReset).errCmd = false := rfl
@[simp] theorem State.onReset_errBusy (s : State) : (s.onReset).errBusy = false := rfl
@[simp] theorem State.onReset_errLen (s : State) : (s.onReset).errLen = false := rfl
@[simp] theorem State.onReset_mem (s : State) : (s.onReset).mem = s.mem := rfl
@[simp] theorem State.onReset_rdata (s : State) : (s.onReset).rdata = s.rdata := rfl
@[simp] theorem State.onReset_inputs (s : State) : (s.onReset).inputs = s.inputs := rfl
@[simp] theorem State.onReset_draws (s : State) : (s.onReset).draws = s.draws := rfl

/-! ### `setFlag` -/

@[simp] theorem State.setFlag_cfg (s : State) (f : ErrFlag) : (s.setFlag f).cfg = s.cfg := by
  cases f <;> rfl
@[simp] theorem State.setFlag_h (s : State) (f : ErrFlag) : (s.setFlag f).h = s.h := by
  cases f <;> rfl
@[simp] theorem State.setFlag_a (s : State) (f : ErrFlag) : (s.setFlag f).a = s.a := by
  cases f <;> rfl
@[simp] theorem State.setFlag_w (s : State) (f : ErrFlag) : (s.setFlag f).w = s.w := by
  cases f <;> rfl
@[simp] theorem State.setFlag_phase (s : State) (f : ErrFlag) : (s.setFlag f).phase = s.phase := by
  cases f <;> rfl
@[simp] theorem State.setFlag_stepIdx (s : State) (f : ErrFlag) : (s.setFlag f).stepIdx = s.stepIdx := by
  cases f <;> rfl
@[simp] theorem State.setFlag_kblk (s : State) (f : ErrFlag) : (s.setFlag f).kblk = s.kblk := by
  cases f <;> rfl
@[simp] theorem State.setFlag_nblk (s : State) (f : ErrFlag) : (s.setFlag f).nblk = s.nblk := by
  cases f <;> rfl
@[simp] theorem State.setFlag_dg (s : State) (f : ErrFlag) : (s.setFlag f).dg = s.dg := by
  cases f <;> rfl
@[simp] theorem State.setFlag_msgLen (s : State) (f : ErrFlag) : (s.setFlag f).msgLen = s.msgLen := by
  cases f <;> rfl
@[simp] theorem State.setFlag_errCmd (s : State) (f : ErrFlag) :
    (s.setFlag f).errCmd = (s.errCmd || decide (f = .cmd)) := by cases f <;> simp [State.setFlag]
@[simp] theorem State.setFlag_errBusy (s : State) (f : ErrFlag) :
    (s.setFlag f).errBusy = (s.errBusy || decide (f = .busy)) := by cases f <;> simp [State.setFlag]
@[simp] theorem State.setFlag_errLen (s : State) (f : ErrFlag) :
    (s.setFlag f).errLen = (s.errLen || decide (f = .len)) := by cases f <;> simp [State.setFlag]
@[simp] theorem State.setFlag_mem (s : State) (f : ErrFlag) : (s.setFlag f).mem = s.mem := by
  cases f <;> rfl
@[simp] theorem State.setFlag_rdata (s : State) (f : ErrFlag) : (s.setFlag f).rdata = s.rdata := by
  cases f <;> rfl
@[simp] theorem State.setFlag_inputs (s : State) (f : ErrFlag) : (s.setFlag f).inputs = s.inputs := by
  cases f <;> rfl
@[simp] theorem State.setFlag_draws (s : State) (f : ErrFlag) : (s.setFlag f).draws = s.draws := by
  cases f <;> rfl

/-! ### Updates that undo or leave things as they are -/

@[simp] theorem State.setInputs_self (s : State) : s.setInputs s.inputs = s := rfl

@[simp] theorem State.setInputs_setInputs (s : State) (is js : List Input) :
    (s.setInputs is).setInputs js = s.setInputs js := rfl

@[simp] theorem State.busy_of_phase (s : State) : s.phase.busy = s.busy := rfl

@[simp] theorem State.setInputs_busy (s : State) (is : List Input) :
    (s.setInputs is).busy = s.busy := rfl

end Sys2Proof.Machine
end

