-- ==== Sys2Proof/Laws/Memory.lean ====
section
/-! SUPPORT. The laws of the message memory: a read after a write, that every operation keeps the
canonical form and the range, and what a strobed word write does to each byte. -/

namespace Sys2Proof.Machine

@[simp] theorem Memory.get?_set_self (m : Memory) (o : Nat) (b : Byte) :
    (m.set o b).get? o = some b := by
  induction m with
  | nil => simp [Memory.set, Memory.get?]
  | cons c m ih =>
    obtain ⟨p, c⟩ := c
    simp only [Memory.set]
    split
    · simp [Memory.get?]
    · split
      · simp [Memory.get?]
      · have : p ≠ o := fun h => by omega
        simp [Memory.get?, this, ih]

theorem Memory.get?_set_ne (m : Memory) {o x : Nat} (b : Byte) (h : x ≠ o) :
    (m.set o b).get? x = m.get? x := by
  induction m with
  | nil => simp [Memory.set, Memory.get?, Ne.symm h]
  | cons c m ih =>
    obtain ⟨p, c⟩ := c
    simp only [Memory.set]
    split
    · simp [Memory.get?, Ne.symm h]
    · split
      · rename_i h1; subst h1; simp [Memory.get?, Ne.symm h]
      · simp [Memory.get?, ih]

/-- The canonical form of a list with a head: the head's offset lies below the next one. -/
theorem Memory.wf_cons (p : Nat) (c : Byte) (m : Memory) :
    Memory.wf ((p, c) :: m) = true ↔ (∀ x ∈ m.head?, p < x.1) ∧ Memory.wf m = true := by
  cases m with
  | nil => simp [Memory.wf]
  | cons d m => simp [Memory.wf]

/-- A write puts at the head the written offset or the old head. -/
theorem Memory.head?_set (m : Memory) (o : Nat) (b : Byte) :
    ∀ x ∈ (m.set o b).head?, x.1 = o ∨ ∃ y ∈ m.head?, x.1 = y.1 := by
  cases m with
  | nil => simp [Memory.set]
  | cons c m =>
    obtain ⟨p, c⟩ := c
    simp only [Memory.set]
    split
    · simp
    · split <;> simp

theorem Memory.wf_set (m : Memory) (o : Nat) (b : Byte) (h : m.wf = true) :
    (m.set o b).wf = true := by
  induction m with
  | nil => rfl
  | cons c m ih =>
    obtain ⟨p, c⟩ := c
    have ⟨hhead, htail⟩ := (Memory.wf_cons p c m).1 h
    simp only [Memory.set]
    split
    · rename_i hop; exact (Memory.wf_cons _ _ _).2 ⟨by simpa using hop, h⟩
    · split
      · rename_i hop; subst hop; exact (Memory.wf_cons _ _ _).2 ⟨hhead, htail⟩
      · refine (Memory.wf_cons _ _ _).2 ⟨fun x hx => ?_, ih htail⟩
        rcases Memory.head?_set m o b x hx with h1 | ⟨y, hy, h1⟩
        · omega
        · rw [h1]; exact hhead y hy

theorem Memory.within_set {cap : Nat} (m : Memory) {o : Nat} (b : Byte) (ho : o < cap)
    (h : m.within cap = true) : (m.set o b).within cap = true := by
  induction m with
  | nil => simpa [Memory.set, Memory.within] using ho
  | cons c m ih =>
    obtain ⟨p, c⟩ := c
    simp only [Memory.within, List.all_cons, Bool.and_eq_true, decide_eq_true_eq] at h ih
    simp only [Memory.set]
    split
    · simp [Memory.within, ho, h]
    · split
      · simp [Memory.within, ho, h]
      · simp [Memory.within, h.1, ih h.2]

theorem Memory.get?_write (m : Memory) (cap o x : Nat) (b : Byte) :
    (m.write cap o b).get? x = if o < cap ∧ x = o then some b else m.get? x := by
  unfold Memory.write
  by_cases hx : x = o
  · subst hx; by_cases hc : x < cap <;> simp [hc]
  · by_cases hc : o < cap <;> simp [hc, hx, Memory.get?_set_ne]

theorem Memory.wf_write (m : Memory) (cap o : Nat) (b : Byte) (h : m.wf = true) :
    (m.write cap o b).wf = true := by
  unfold Memory.write
  split
  · exact Memory.wf_set m o b h
  · exact h

theorem Memory.within_write (m : Memory) (cap o : Nat) (b : Byte) (h : m.within cap = true) :
    (m.write cap o b).within cap = true := by
  unfold Memory.write
  split
  · rename_i ho; exact Memory.within_set m b ho h
  · exact h

/-- A read of a written byte is that byte, whatever the draw. -/
theorem Memory.read_of_get? {m : Memory} {o : Nat} {b : Byte} (k : Nat) (h : m.get? o = some b) :
    m.read o k = b := by simp [Memory.read, h]

/-- Every byte after one lane of a write. -/
theorem get?_storeLane (cap o : Nat) (d : Word) (st : Strobe) (m : Memory) (l x : Nat) :
    (storeLane cap o d st m l).get? x =
      if st.getLsbD l = true ∧ o + l < cap ∧ x = o + l then some (lane d l) else m.get? x := by
  unfold storeLane
  by_cases hs : st.getLsbD l = true
  · simp only [hs, if_true, true_and]; exact Memory.get?_write m cap (o + l) x (lane d l)
  · simp [hs]

/-- Every byte after a strobed word write (R62): the strobed lanes below the capacity, and no other. -/
theorem get?_storeLanes (cap o : Nat) (d : Word) (st : Strobe) (m : Memory) (x : Nat) :
    (storeLanes cap o d st m).get? x =
      if o ≤ x ∧ x < o + 4 ∧ x < cap ∧ st.getLsbD (x - o) = true then some (lane d (x - o))
      else m.get? x := by
  simp only [storeLanes, List.foldl, get?_storeLane, Nat.add_zero]
  by_cases hx : o ≤ x ∧ x < o + 4
  · obtain ⟨l, hl, rfl⟩ : ∃ l, l < 4 ∧ x = o + l := ⟨x - o, by omega, by omega⟩
    have : o + l - o = l := by omega
    rw [this]
    rcases (by omega : l = 0 ∨ l = 1 ∨ l = 2 ∨ l = 3) with rfl | rfl | rfl | rfl <;>
      simp [and_comm]
  · have h0 : x ≠ o := by omega
    have h1 : x ≠ o + 1 := by omega
    have h2 : x ≠ o + 2 := by omega
    have h3 : x ≠ o + 3 := by omega
    have hn : ¬ (o ≤ x ∧ x < o + 4 ∧ x < cap ∧ st.getLsbD (x - o) = true) := by
      intro h; exact hx ⟨h.1, h.2.1⟩
    simp [h0, h1, h2, h3, hn]

/-- Two properties that one lane of a write keeps, all four keep. -/
theorem storeLanes_wf (cap o : Nat) (d : Word) (st : Strobe) (m : Memory) (h : m.wf = true) :
    (storeLanes cap o d st m).wf = true := by
  have one : ∀ (m : Memory) (l : Nat), m.wf = true → (storeLane cap o d st m l).wf = true := by
    intro m l hm
    unfold storeLane
    split
    · exact Memory.wf_write _ _ _ _ hm
    · exact hm
  exact one _ _ (one _ _ (one _ _ (one _ _ h)))

theorem storeLanes_within (cap o : Nat) (d : Word) (st : Strobe) (m : Memory)
    (h : m.within cap = true) : (storeLanes cap o d st m).within cap = true := by
  have one : ∀ (m : Memory) (l : Nat), m.within cap = true →
      (storeLane cap o d st m l).within cap = true := by
    intro m l hm
    unfold storeLane
    split
    · exact Memory.within_write _ _ _ _ hm
    · exact hm
  exact one _ _ (one _ _ (one _ _ (one _ _ h)))

end Sys2Proof.Machine
end

