-- ==== Sys2Proof/Laws/PerInstr.lean ====
section
/-! SUPPORT. Per-instruction laws of the encoding. `EncodeCanonical`: the key of a well-formed
instruction has address bits [1:0] clear, and a read's data word and strobe are 0 (R64, R94). -/

namespace Sys2Proof.Laws.EncodeCanonical

/-- A key that carries nothing the hardware ignores. -/
def canonicalKey : Key → Prop
  | .bus t => alignAddr t.addr = t.addr ∧ (t.write = false → t.wdata = 0 ∧ t.wstrb = 0)
  | .cmd _ => True
  | .uop _ => True

/-- The statement of the family. -/
def Statement (i : Instr) : Prop := ∀ c : Config, i.wellFormed c = true → canonicalKey (encode i)

theorem readTx_canonical {a : Word} (h : a.toNat % 4 = 0) : canonicalKey (.bus (readTx a)) := by
  refine ⟨?_, fun _ => ⟨rfl, rfl⟩⟩
  apply BitVec.eq_of_toNat_eq
  rw [alignAddr_toNat]
  simp only [readTx]
  omega

theorem writeTx_canonical {a : Word} (d : Word) (s : Strobe) (h : a.toNat % 4 = 0) :
    canonicalKey (.bus (writeTx a d s)) := by
  refine ⟨?_, fun h => by simp [writeTx] at h⟩
  apply BitVec.eq_of_toNat_eq
  rw [alignAddr_toNat]
  simp only [writeTx]
  omega

theorem windowAddr_aligned (base k : Nat) (hb : base % 4 = 0) :
    (windowAddr base k).toNat % 4 = 0 := by
  simp only [windowAddr, BitVec.toNat_ofNat]
  omega

theorem msgAddr_aligned (o : Word) (h : o.toNat % 4 = 0) : (0x1000 + o).toNat % 4 = 0 := by
  rw [BitVec.toNat_add, show BitVec.toNat (0x1000 : Word) = 0x1000 from rfl]
  omega

theorem Config.msgOffset_aligned {c : Config} {o : Nat} (h : c.msgOffset o = true) : o % 4 = 0 := by
  simp only [Config.msgOffset, Bool.and_eq_true, decide_eq_true_eq] at h
  exact h.1

theorem rdId : Statement .rdId := fun _ _ => readTx_canonical (by decide)

theorem rdCmd : Statement .rdCmd := fun _ _ => readTx_canonical (by decide)

theorem rdStatus : Statement .rdStatus := fun _ _ => readTx_canonical (by decide)

theorem rdMsgLen : Statement .rdMsgLen := fun _ _ => readTx_canonical (by decide)

theorem rdBlocks : Statement .rdBlocks := fun _ _ => readTx_canonical (by decide)

theorem rdNblocks : Statement .rdNblocks := fun _ _ => readTx_canonical (by decide)

theorem rdMsgCap : Statement .rdMsgCap := fun _ _ => readTx_canonical (by decide)

theorem rdDigest (j : Fin 8) : Statement (.rdDigest j) := fun _ _ =>
  readTx_canonical (windowAddr_aligned _ _ rfl)

theorem rdHex (q : Fin 16) : Statement (.rdHex q) := fun _ _ =>
  readTx_canonical (windowAddr_aligned _ _ rfl)

theorem rdDigestb (q : Fin 8) : Statement (.rdDigestb q) := fun _ _ =>
  readTx_canonical (windowAddr_aligned _ _ rfl)

theorem rdMsg (o : Word) : Statement (.rdMsg o) := fun _ h =>
  readTx_canonical (msgAddr_aligned o (Config.msgOffset_aligned h))

theorem rdRsv (a : Word) : Statement (.rdRsv a) := fun _ h =>
  readTx_canonical (by simpa [Instr.wellFormed] using (Bool.and_eq_true_iff.1 h).1)

theorem wrId (d : Word) (s : Strobe) : Statement (.wrId d s) :=
  fun _ _ => writeTx_canonical d s (by decide)

theorem wrCmd (d : Word) (s : Strobe) : Statement (.wrCmd d s) :=
  fun _ _ => writeTx_canonical d s (by decide)

theorem wrStatus (d : Word) (s : Strobe) : Statement (.wrStatus d s) :=
  fun _ _ => writeTx_canonical d s (by decide)

theorem wrMsgLen (d : Word) (s : Strobe) : Statement (.wrMsgLen d s) :=
  fun _ _ => writeTx_canonical d s (by decide)

theorem wrBlocks (d : Word) (s : Strobe) : Statement (.wrBlocks d s) :=
  fun _ _ => writeTx_canonical d s (by decide)

theorem wrNblocks (d : Word) (s : Strobe) : Statement (.wrNblocks d s) :=
  fun _ _ => writeTx_canonical d s (by decide)

theorem wrMsgCap (d : Word) (s : Strobe) : Statement (.wrMsgCap d s) :=
  fun _ _ => writeTx_canonical d s (by decide)

theorem wrDigest (j : Fin 8) (d : Word) (s : Strobe) : Statement (.wrDigest j d s) := fun _ _ =>
  writeTx_canonical d s (windowAddr_aligned _ _ rfl)

theorem wrHex (q : Fin 16) (d : Word) (s : Strobe) : Statement (.wrHex q d s) := fun _ _ =>
  writeTx_canonical d s (windowAddr_aligned _ _ rfl)

theorem wrDigestb (q : Fin 8) (d : Word) (s : Strobe) : Statement (.wrDigestb q d s) := fun _ _ =>
  writeTx_canonical d s (windowAddr_aligned _ _ rfl)

theorem wrMsg (o : Word) (d : Word) (s : Strobe) : Statement (.wrMsg o d s) := fun _ h =>
  writeTx_canonical d s (msgAddr_aligned o (Config.msgOffset_aligned h))

theorem wrRsv (a : Word) (d : Word) (s : Strobe) : Statement (.wrRsv a d s) := fun _ h =>
  writeTx_canonical d s (by simpa [Instr.wellFormed] using (Bool.and_eq_true_iff.1 h).1)

theorem cmdNop : Statement .cmdNop := fun _ _ => trivial

theorem cmdStart : Statement .cmdStart := fun _ _ => trivial

theorem cmdClear : Statement .cmdClear := fun _ _ => trivial

theorem cmdIllegal (d : Word) : Statement (.cmdIllegal d) := fun _ _ => trivial

theorem uopLoad : Statement .uopLoad := fun _ _ => trivial

theorem uopSched : Statement .uopSched := fun _ _ => trivial

theorem uopCinit : Statement .uopCinit := fun _ _ => trivial

theorem uopRound : Statement .uopRound := fun _ _ => trivial

theorem uopFeed : Statement .uopFeed := fun _ _ => trivial

theorem uopFinal : Statement .uopFinal := fun _ _ => trivial

end Sys2Proof.Laws.EncodeCanonical
end

