-- ==== Sys2Proof/Laws/Step.lean ====
section
/-! SUPPORT. What a step can do, said once: the state an instruction answers, what a turn of the core
runs in each phase, and what a write transaction does by its address. -/

namespace Sys2Proof.Machine

/-! ## Phases -/

@[simp] theorem Phase.ofCode_code (p : Phase) : Phase.ofCode p.code = p := by cases p <;> decide

theorem Phase.code_ofCode : ∀ p : BitVec 3, (Phase.ofCode p).code = p := by decide

@[simp] theorem decodeUop_idle : decodeUop Phase.idle.code = none := rfl
@[simp] theorem decodeUop_load : decodeUop Phase.load.code = some .uopLoad := rfl
@[simp] theorem decodeUop_sched : decodeUop Phase.sched.code = some .uopSched := rfl
@[simp] theorem decodeUop_cinit : decodeUop Phase.cinit.code = some .uopCinit := rfl
@[simp] theorem decodeUop_round : decodeUop Phase.round.code = some .uopRound := rfl
@[simp] theorem decodeUop_feed : decodeUop Phase.feed.code = some .uopFeed := rfl
@[simp] theorem decodeUop_final : decodeUop Phase.final.code = some .uopFinal := rfl
@[simp] theorem decodeUop_done : decodeUop Phase.done.code = none := rfl

/-- The core has a step exactly when the machine is busy (R20, R15). -/
theorem decodeUop_isSome_iff (p : Phase) : (decodeUop p.code).isSome = p.busy := by
  cases p <;> rfl

theorem State.busy_eq_false_iff (s : State) :
    s.busy = false ↔ s.phase = .idle ∨ s.phase = .done := by
  unfold State.busy
  cases s.phase <;> simp [Phase.busy]

/-! ## The state an instruction answers -/

/-- The state that an instruction answers, as a function: `exec_eq_next` says that it always does. -/
def after (i : Instr) (s : State) : State :=
  match exec i s with
  | .next u => u
  | .fault _ => s
  | .refused _ => s

theorem execWrCmd_eq (d : Word) (st : Strobe) (s : State) :
    exec (.wrCmd d st) s = exec (decodeCmd d) s := by
  simp only [exec, execWrCmd, decodeCmd]
  split_ifs <;> rfl

theorem exec_eq_next (i : Instr) (s : State) : exec i s = .next (after i s) := by
  cases i
  case wrCmd d st =>
    unfold after
    rw [execWrCmd_eq]
    unfold decodeCmd
    split_ifs <;> rfl
  all_goals rfl

theorem exec_next_iff (i : Instr) (s u : State) : exec i s = .next u ↔ u = after i s := by
  rw [exec_eq_next]
  exact ⟨fun h => (Host.Outcome.next.inj h).symm, fun h => by rw [h]⟩

/-! ## The core's turn -/

/-- What a turn of the core leaves: one micro-op where `PHASE` selects one, the same state elsewhere. -/
def coreStep (s : State) : State :=
  match decodeUop s.phase.code with
  | some i => after i s
  | none => s

theorem step_nil (s : State) (h : s.inputs = []) : step s = .next (coreStep s) := by
  unfold step State.fetch State.coreTurn coreStep
  rw [h]
  cases decodeUop s.phase.code with
  | none => rfl
  | some i => exact exec_eq_next i s

theorem step_core (s : State) (is : List Input) (h : s.inputs = .core :: is) :
    step s = .next (coreStep (s.setInputs is)) := by
  unfold step State.fetch State.coreTurn coreStep
  rw [h]
  simp only [State.setInputs_phase]
  cases decodeUop s.phase.code with
  | none => rfl
  | some i => exact exec_eq_next i _

theorem step_bus (s : State) (t : BusTx) (is : List Input) (h : s.inputs = .bus t :: is) :
    step s = .next (after (decodeBus s.cfg t) (s.setInputs is)) := by
  unfold step State.fetch
  rw [h]
  exact exec_eq_next _ _

theorem step_reset (s : State) (is : List Input) (h : s.inputs = .reset :: is) :
    step s = .next (s.setInputs is).onReset := by
  unfold step State.fetch
  rw [h]

/-- The inversion of a step: one of four cases. -/
theorem step_cases (s u : State) (h : step s = .next u) :
    (s.coreNext = true ∧ u = coreStep (s.setInputs s.inputs.tail))
      ∨ (∃ t is, s.inputs = .bus t :: is ∧ u = after (decodeBus s.cfg t) (s.setInputs is))
      ∨ (∃ is, s.inputs = .reset :: is ∧ u = (s.setInputs is).onReset) := by
  match hi : s.inputs with
  | [] =>
    rw [step_nil s hi] at h
    refine .inl ⟨by simp [State.coreNext, hi], ?_⟩
    have : s.setInputs [] = s := by rw [← hi]; rfl
    simpa [this] using (Host.Outcome.next.inj h).symm
  | .core :: is =>
    rw [step_core s is hi] at h
    exact .inl ⟨by simp [State.coreNext, hi, Input.isCore], (Host.Outcome.next.inj h).symm⟩
  | .bus t :: is =>
    rw [step_bus s t is hi] at h
    exact .inr (.inl ⟨t, is, rfl, (Host.Outcome.next.inj h).symm⟩)
  | .reset :: is =>
    rw [step_reset s is hi] at h
    exact .inr (.inr ⟨is, rfl, (Host.Outcome.next.inj h).symm⟩)

/-! ## Each phase's micro-op -/

theorem coreStep_idle (s : State) (h : s.phase = .idle) : coreStep s = s := by
  simp [coreStep, h]

theorem coreStep_done (s : State) (h : s.phase = .done) : coreStep s = s := by
  simp [coreStep, h]

theorem after_uopLoad (s : State) :
    after .uopLoad s = ((s.setW (Vector.ofFn fun i : Fin 64 =>
      if i.val < 16 then s.blockWord i.val else s.w[i])).goTo .sched 16).draw 64 := rfl

theorem after_uopSched (s : State) :
    after .uopSched s =
      if s.stepIdx = 63 then
        ((s.setW (s.w.setIfInBounds s.stepIdx.toNat s.nextScheduleWord)).draw 1).goTo .cinit 0
      else ((s.setW (s.w.setIfInBounds s.stepIdx.toNat s.nextScheduleWord)).draw 1).goTo s.phase
        (s.stepIdx + 1) := rfl

theorem after_uopCinit (s : State) : after .uopCinit s = (s.setA s.h).goTo .round 0 := rfl

theorem after_uopRound (s : State) :
    after .uopRound s =
      if s.stepIdx = 63 then
        ((s.setA (roundFn s.a s.roundConst s.roundWord)).draw 2).goTo .feed 0
      else ((s.setA (roundFn s.a s.roundConst s.roundWord)).draw 2).goTo s.phase
        (s.stepIdx + 1) := rfl

theorem after_uopFeed (s : State) :
    after .uopFeed s =
      ((s.setH (Vector.ofFn fun j : Fin 8 => s.h[j] + s.a[j])).setBlocks (s.kblk + 1) s.nblk).goTo
        (if s.kblk + 1 < s.nblk then .load else .final) 0 := rfl

theorem after_uopFinal (s : State) :
    after .uopFinal s = (s.setDg (serialize s.h)).goTo .done 0 := rfl

/-- The turn of the core, by phase. -/
theorem coreStep_eq (s : State) :
    coreStep s =
      match s.phase with
      | .idle | .done => s
      | .load => after .uopLoad s
      | .sched => after .uopSched s
      | .cinit => after .uopCinit s
      | .round => after .uopRound s
      | .feed => after .uopFeed s
      | .final => after .uopFinal s := by
  unfold coreStep
  cases s.phase <;> rfl

/-- What no turn of the core changes: the flags, the message, the parameter, the events, `rdata`, the
block count. -/
theorem coreStep_frame (s : State) :
    (coreStep s).cfg = s.cfg ∧ (coreStep s).inputs = s.inputs ∧ (coreStep s).rdata = s.rdata
      ∧ (coreStep s).mem = s.mem ∧ (coreStep s).msgLen = s.msgLen ∧ (coreStep s).nblk = s.nblk
      ∧ (coreStep s).errCmd = s.errCmd ∧ (coreStep s).errBusy = s.errBusy
      ∧ (coreStep s).errLen = s.errLen := by
  rw [coreStep_eq]
  cases s.phase
  case sched => simp only [after_uopSched]; split_ifs <;> simp
  case round => simp only [after_uopRound]; split_ifs <;> simp
  all_goals simp [after_uopLoad, after_uopCinit, after_uopFeed, after_uopFinal]

/-! ## The transactions -/

/-- What holds of both branches holds of the choice. -/
theorem ite_holds {α : Type} {P : α → Prop} {c : Prop} {_ : Decidable c} {x y : α} (hx : P x)
    (hy : P y) : P (if c then x else y) := by
  split
  · exact hx
  · exact hy

/-- A read leaves a state that differs in `rdata` and in the counter of draws only. -/
theorem after_read (c : Config) (t : BusTx) (s : State) (ht : t.write = false) :
    ∃ d n, after (decodeBus c t) s = (s.setRdata d).draw n := by
  have zero : ∀ d, ∃ d' n, s.setRdata d = (s.setRdata d').draw n := fun d => ⟨d, 0, rfl⟩
  have h : decodeBus c t = decodeRead c (alignAddr t.addr) := by simp [decodeBus, ht]
  rw [h]
  unfold decodeRead
  iterate 10 refine ite_holds (P := fun i => ∃ d n, after i s = (s.setRdata d).draw n) (zero _) ?_
  exact ite_holds (P := fun i => ∃ d n, after i s = (s.setRdata d).draw n) ⟨_, 4, rfl⟩ (zero _)

/-- A write, by its byte address: the command word, `MSG_LEN`, the message window, or ignored. -/
theorem after_write (c : Config) (t : BusTx) (s : State) (ht : t.write = true) :
    after (decodeBus c t) s =
      if 0x004 ≤ t.addr.toNat ∧ t.addr.toNat < 0x008 then after (decodeCmd t.wdata) s
      else if 0x00C ≤ t.addr.toNat ∧ t.addr.toNat < 0x010 then
        (if s.busy then s.setFlag .busy else s.setMsgLen t.wdata)
      else if c.inWindow (alignAddr t.addr) then
        (if s.busy then s.setFlag .busy
          else s.setMem (storeLanes s.cfg.cap (alignAddr t.addr - 0x1000).toNat t.wdata t.wstrb s.mem))
      else s := by
  have hcmd : after (.wrCmd t.wdata t.wstrb) s = after (decodeCmd t.wdata) s := by
    unfold after
    rw [execWrCmd_eq]
  have hd : decodeBus c t = decodeWrite c (alignAddr t.addr) t.wdata t.wstrb := by
    simp [decodeBus, ht]
  rw [hd]
  by_cases hc : 0x004 ≤ t.addr.toNat ∧ t.addr.toNat < 0x008
  · rw [decodeWrite_alignAddr, if_neg (show ¬ t.addr.toNat < 0x004 by omega), if_pos hc.2, if_pos hc]
    exact hcmd
  by_cases hl : 0x00C ≤ t.addr.toNat ∧ t.addr.toNat < 0x010
  · rw [decodeWrite_alignAddr, if_neg (show ¬ t.addr.toNat < 0x004 by omega),
      if_neg (show ¬ t.addr.toNat < 0x008 by omega), if_neg (show ¬ t.addr.toNat < 0x00C by omega), if_pos hl.2, if_neg hc, if_pos hl]
    rfl
  rw [if_neg hc, if_neg hl]
  by_cases hin : c.inWindow (alignAddr t.addr) = true
  · rw [if_pos hin, decodeWrite_window _ _ _ _ hin]
    rfl
  · rw [decodeWrite_alignAddr, if_neg hin, if_neg hin]
    by_cases h0 : t.addr.toNat < 0x004
    · rw [if_pos h0]; rfl
    rw [if_neg h0, if_neg (show ¬ t.addr.toNat < 0x008 by omega)]
    by_cases h2 : t.addr.toNat < 0x00C
    · rw [if_pos h2]; rfl
    rw [if_neg h2, if_neg (show ¬ t.addr.toNat < 0x010 by omega)]
    iterate 6 refine ite_holds (P := fun i => after i s = s) rfl ?_
    rfl

/-- A command, by its word (R141, R122-R125). -/
theorem after_command (d : Word) (s : State) :
    after (decodeCmd d) s =
      if d = 0x00000000 then s
      else if d = 0x00000001 then
        (if s.busy then s.setFlag .busy
          else if s.cfg.cap < s.msgLen.toNat then (s.setFlag .len).goTo .idle 0
          else ((s.setH iv).setBlocks 0 (BitVec.ofNat 32 (blockCount s.msgLen.toNat))).goTo .load 0)
      else if d = 0x00000002 then
        (if s.busy then s.setFlag .busy else ((s.clearFlags.setBlocks 0 0).goTo .idle 0))
      else s.setFlag .cmd := by
  unfold decodeCmd
  by_cases h0 : d = 0x00000000
  · rw [if_pos h0, if_pos h0]; rfl
  by_cases h1 : d = 0x00000001
  · rw [if_neg h0, if_neg h0, if_pos h1, if_pos h1]; rfl
  by_cases h2 : d = 0x00000002
  · rw [if_neg h0, if_neg h0, if_neg h1, if_neg h1, if_pos h2, if_pos h2]; rfl
  · rw [if_neg h0, if_neg h0, if_neg h1, if_neg h1, if_neg h2, if_neg h2]; rfl

end Sys2Proof.Machine
end

