-- ==== Sys2Proof/Tests/Slice0.lean ====
section
/-! SUPPORT. The model's own tests: ill-formed terms are refused, written-out words decode, single
instructions give the values of 95_test_vectors.md, and every statement's hypotheses can be met. -/

open Sys2Proof Sys2Proof.Machine

/-! ## WellFormed refuses the ill-formed (R63, R70, R92) -/

theorem test_wf_rdMsg_misaligned : (Instr.rdMsg 2).wellFormed Config.default = false := by decide
theorem test_wf_rdMsg_beyond : (Instr.rdMsg 0x1000).wellFormed Config.default = false := by decide
theorem test_wf_rdMsg_last : (Instr.rdMsg 0xFFC).wellFormed Config.default = true := by decide
theorem test_wf_wrMsg_misaligned : (Instr.wrMsg 3 0 0xF).wellFormed Config.default = false := by decide
theorem test_wf_wrMsg_beyond : (Instr.wrMsg 0x1000 0 0xF).wellFormed Config.default = false := by
  decide
theorem test_wf_rdRsv_misaligned : (Instr.rdRsv 0x1D).wellFormed Config.default = false := by decide
theorem test_wf_rdRsv_assigned : (Instr.rdRsv 0x018).wellFormed Config.default = false := by decide
theorem test_wf_rdRsv_gap : (Instr.rdRsv 0x01C).wellFormed Config.default = true := by decide
theorem test_wf_wrRsv_misaligned : (Instr.wrRsv 0x2001 0 0xF).wellFormed Config.default = false := by
  decide
theorem test_wf_wrRsv_window : (Instr.wrRsv 0x1FFC 0 0xF).wellFormed Config.default = false := by
  decide
theorem test_wf_wrRsv_above : (Instr.wrRsv 0x2000 0 0xF).wellFormed Config.default = true := by decide
theorem test_wf_illegal_nop : (Instr.cmdIllegal 0).wellFormed Config.default = false := by decide
theorem test_wf_illegal_start : (Instr.cmdIllegal 1).wellFormed Config.default = false := by decide
theorem test_wf_illegal_clear : (Instr.cmdIllegal 2).wellFormed Config.default = false := by decide

/-! ## Words written out from the opcode table, one for each row -/

theorem test_decode_rdId : decodeTableWord 40 0x0000000003 = some .rdId := by decide
theorem test_decode_rdCmd : decodeTableWord 40 0x0000000004 = some .rdCmd := by decide
theorem test_decode_rdStatus : decodeTableWord 40 0x0000000008 = some .rdStatus := by decide
theorem test_decode_rdMsgLen : decodeTableWord 40 0x000000000C = some .rdMsgLen := by decide
theorem test_decode_rdBlocks : decodeTableWord 40 0x0000000010 = some .rdBlocks := by decide
theorem test_decode_rdNblocks : decodeTableWord 40 0x0000000014 = some .rdNblocks := by decide
theorem test_decode_rdMsgCap : decodeTableWord 40 0x0000000018 = some .rdMsgCap := by decide
theorem test_decode_rdDigest : decodeTableWord 40 0x0000000024 = some (.rdDigest 1) := by decide
theorem test_decode_rdHex : decodeTableWord 40 0x000000007C = some (.rdHex 15) := by decide
theorem test_decode_rdDigestb : decodeTableWord 40 0x000000009C = some (.rdDigestb 7) := by decide
theorem test_decode_rdMsg : decodeTableWord 40 0x0000001FFE = some (.rdMsg 0xFFC) := by decide
theorem test_decode_rdRsv : decodeTableWord 40 0x00FFFFFFFF = some (.rdRsv 0xFFFFFFFC) := by decide
theorem test_decode_wrId : decodeTableWord 80 0x0F000000090100000000 = some (.wrId 9 0xF) := by decide
theorem test_decode_wrCmd : decodeTableWord 80 0x00000001010100000004 = some (.wrCmd 0x101 0) := by
  decide
theorem test_decode_wrStatus :
    decodeTableWord 80 0x0FFFFFFFFF0100000008 = some (.wrStatus 0xFFFFFFFF 0xF) := by decide
theorem test_decode_wrMsgLen : decodeTableWord 80 0x0F00000003010000000C = some (.wrMsgLen 3 0xF) := by
  decide
theorem test_decode_wrBlocks : decodeTableWord 80 0x0F000000010100000010 = some (.wrBlocks 1 0xF) := by
  decide
theorem test_decode_wrNblocks : decodeTableWord 80 0x0F000000010100000014 = some (.wrNblocks 1 0xF) := by
  decide
theorem test_decode_wrMsgCap : decodeTableWord 80 0x0F000000010100000018 = some (.wrMsgCap 1 0xF) := by
  decide
theorem test_decode_wrDigest :
    decodeTableWord 80 0x0F000000010100000038 = some (.wrDigest 6 1 0xF) := by decide
theorem test_decode_wrHex : decodeTableWord 80 0x0F000000010100000044 = some (.wrHex 1 1 0xF) := by
  decide
theorem test_decode_wrDigestb :
    decodeTableWord 80 0x0F000000010100000080 = some (.wrDigestb 0 1 0xF) := by decide
theorem test_decode_wrMsg :
    decodeTableWord 80 0x01AABBCCDD0100001002 = some (.wrMsg 0 0xAABBCCDD 0x1) := by decide
theorem test_decode_wrRsv :
    decodeTableWord 80 0x0F000000010100000FFC = some (.wrRsv 0xFFC 1 0xF) := by decide
theorem test_decode_cmdNop : decodeTableWord 32 0x00000000 = some .cmdNop := by decide
theorem test_decode_cmdStart : decodeTableWord 32 0x00000001 = some .cmdStart := by decide
theorem test_decode_cmdClear : decodeTableWord 32 0x00000002 = some .cmdClear := by decide
theorem test_decode_cmdIllegal : decodeTableWord 32 0x00000003 = some (.cmdIllegal 3) := by decide
theorem test_decode_uopLoad : decodeTableWord 8 0x1 = some .uopLoad := by decide
theorem test_decode_uopSched : decodeTableWord 8 0x2 = some .uopSched := by decide
theorem test_decode_uopCinit : decodeTableWord 8 0x3 = some .uopCinit := by decide
theorem test_decode_uopRound : decodeTableWord 8 0x4 = some .uopRound := by decide
theorem test_decode_uopFeed : decodeTableWord 8 0x5 = some .uopFeed := by decide
theorem test_decode_uopFinal : decodeTableWord 8 0x6 = some .uopFinal := by decide
theorem test_decode_idle_rejected : decode Config.default (.uop 0) = .error (.noMicroOp 0) := rfl
theorem test_decode_done_rejected : decode Config.default (.uop 7) = .error (.noMicroOp 7) := rfl

/-! ## Small states -/

/-- The reset state in another phase, with the `STEP` that phase begins with. -/
def Tests.inPhase (p : Phase) : State := State.reset.goTo p p.firstIndex

/-- `MEM[0..2]` = "abc" and `MSG_LEN` = 3 (vector V2), in IDLE. -/
def Tests.abcIdle : State := (State.reset.setMem [(0, 0x61), (1, 0x62), (2, 0x63)]).setMsgLen 3

/-- `Tests.abcIdle` after START: one block, LOAD next. -/
def Tests.abcLoad : State := ((Tests.abcIdle.setH iv).setBlocks 0 1).goTo .load 0

/-- The hash state of "abc" after FEED (95_test_vectors.md section 2.3). -/
def Tests.abcH : Vector Word 8 :=
  #v[0xba7816bf, 0x8f01cfea, 0x414140de, 0x5dae2223, 0xb00361a3, 0x96177a9c, 0xb410ff61, 0xf20015ad]

/-- FINAL next, with the hash state of "abc". -/
def Tests.abcFinal : State := ((Tests.abcIdle.setH Tests.abcH).setBlocks 1 1).goTo .final 0

/-- DONE, with the hash state and the digest of "abc". -/
def Tests.abcDone : State := (Tests.abcFinal.setDg (serialize Tests.abcH)).goTo .done 0

/-- Reset, with events to come (vector P1 starts so). -/
def Tests.p1 (is : List Input) : State := State.reset.setInputs is

/-! ## Commands (95_test_vectors.md section 2.5) -/

theorem test_start_status : (after .cmdStart Tests.abcIdle).status = 0x00000101 := by decide
theorem test_start_twice : (after .cmdStart ((State.reset.goTo .sched 16))).status = 0x00100209 := by
  decide
theorem test_start_too_long : (after .cmdStart (State.reset.setMsgLen 0x2000)).status = 0x00000010 := by
  decide
theorem test_start_too_long_done :
    (after .cmdStart (Tests.abcDone.setMsgLen 0x2000)).status = 0x00000010 := by decide
theorem test_nop_in_done : (after .cmdNop Tests.abcDone).status = 0x00000702 := by decide
theorem test_clear_from_done : (after .cmdClear (Tests.abcDone.setFlag .busy)).status = 0x00000000 := by
  decide
theorem test_clear_busy : (after .cmdClear (State.reset.goTo .sched 16)).status = 0x00100209 := by decide
theorem test_illegal_idle : (after (.cmdIllegal 0xFF) State.reset).status = 0x00000004 := by decide
theorem test_wrCmd_illegal_busy :
    (after (.wrCmd 0xFF 0xF) (State.reset.goTo .sched 16)).status = 0x00100205 := by decide
theorem test_wrCmd_start : (after (.wrCmd 1 0x0) Tests.abcIdle).status = 0x00000101 := by decide

/-! ## Writes (95_test_vectors.md section 2.5) -/

theorem test_wrMsg_abc :
    (after (.wrMsg 0 0x00636261 0x7) State.reset).mem = [(0, 0x61), (1, 0x62), (2, 0x63)] := by decide
theorem test_wrMsg_one_lane : (after (.wrMsg 0 0xAABBCCDD 0x1) State.reset).mem = [(0, 0xDD)] := by
  decide
theorem test_wrMsgLen_idle : (after (.wrMsgLen 0x2000 0x0) State.reset).msgLen = 0x2000 := by decide
theorem test_wrMsgLen_busy : (after (.wrMsgLen 5 0xF) Tests.abcLoad).status = 0x00000109 := by decide
theorem test_wrStatus_done : (after (.wrStatus 0xFFFFFFFF 0xF) Tests.abcDone).status = 0x00000702 := by
  decide
theorem test_wrRsv : (after (.wrRsv 0xFFC 1 0xF) State.reset).status = 0x00000000 := by decide

/-! ## Reads (95_test_vectors.md sections 2.4 and 2.5) -/

theorem test_rdId : (after .rdId State.reset).rdata = 0x53484132 := by decide
theorem test_rdCmd : (after .rdCmd Tests.abcDone).rdata = 0x00000000 := by decide
theorem test_rdStatus : (after .rdStatus Tests.abcDone).rdata = 0x00000702 := by decide
theorem test_rdMsgLen : (after .rdMsgLen (State.reset.setMsgLen 0x2000)).rdata = 0x00002000 := by decide
theorem test_rdMsgCap : (after .rdMsgCap State.reset).rdata = 0x00001000 := by decide
theorem test_rdNblocks :
    (after .rdNblocks (after .cmdStart (State.reset.setMsgLen 56))).rdata = 0x00000002 := by decide
theorem test_rdBlocks : (after .rdBlocks Tests.abcDone).rdata = 0x00000001 := by decide
theorem test_rdDigest : (after (.rdDigest 7) Tests.abcDone).rdata = 0xf20015ad := by decide
theorem test_rdDigest_busy : (after (.rdDigest 0) (Tests.abcDone.goTo .load 0)).rdata = 0 := by decide
theorem test_rdHex : (after (.rdHex 0) Tests.abcDone).rdata = 0x38376162 := by decide
theorem test_rdHex_last : (after (.rdHex 15) Tests.abcDone).rdata = 0x64613531 := by decide
theorem test_rdDigestb : (after (.rdDigestb 0) Tests.abcDone).rdata = 0xbf1678ba := by decide
theorem test_rdDigestb_last : (after (.rdDigestb 7) Tests.abcDone).rdata = 0xad1500f2 := by decide
theorem test_rdMsg :
    (after (.rdMsg 4) (State.reset.setMem [(4, 0x61), (5, 0x62), (6, 0x63), (7, 0x64)])).rdata
      = 0x64636261 := by decide
theorem test_rdRsv : (after (.rdRsv 0x2000) (Tests.abcDone)).rdata = 0 := by decide

/-! ## Functions and micro-ops (95_test_vectors.md sections 2.1 to 2.4) -/

theorem test_s0_s1 : s0 0x12345678 = 0xe7fce6ee ∧ s1 0x12345678 = 0xa1f78649 := by decide
theorem test_bigS0_bigS1 : bigS0 0x12345678 = 0x66146474 ∧ bigS1 0x12345678 = 0x3561abda := by decide
theorem test_ch_maj :
    ch 0xffff0000 0x12345678 0x9abcdef0 = 0x1234def0 ∧ maj 0xff00ff00 0x0f0f0f0f 0x33333333 = 0x3f033f03 :=
  by decide
theorem test_round_wraps :
    roundFn (Vector.replicate 8 0xffffffff) 1 0
      = #v[0xfffffffc, 0xffffffff, 0xffffffff, 0xffffffff, 0xfffffffd, 0xffffffff, 0xffffffff,
          0xffffffff] := by decide
theorem test_block_counts : blockCount 55 = 1 ∧ blockCount 56 = 2 ∧ blockCount 64 = 2 := by decide
theorem test_length_field : lengthByte 119 6 = 0x03 ∧ lengthByte 119 7 = 0xb8 := by decide
theorem test_hex_digits : hexDigit 9 = 0x39 ∧ hexDigit 0xa = 0x61 := by decide

theorem test_load_first_word : (after .uopLoad Tests.abcLoad).w[0] = 0x61626380 := by decide
theorem test_load_last_word : (after .uopLoad Tests.abcLoad).w[15] = 0x00000018 := by decide
theorem test_sched_word :
    (after .uopSched ((Tests.inPhase .sched).goTo .sched 17 |>.setW
      ((Vector.replicate 64 0).set 1 0 |>.set 15 0x18))).w[17] = 0x000f0000 := by decide
theorem test_sched_last : (after .uopSched (State.reset.goTo .sched 63)).status = 0x00000301 := by decide
theorem test_cinit : (after .uopCinit (Tests.abcLoad.goTo .cinit 0)).a = iv := by decide
theorem test_round_zero :
    (after .uopRound ((Tests.abcLoad.setA iv).setW ((Vector.replicate 64 0).set 0 0x61626380)
      |>.goTo .round 0)).a
      = #v[0x5d6aebcd, 0x6a09e667, 0xbb67ae85, 0x3c6ef372, 0xfa2a4622, 0x510e527f, 0x9b05688c,
          0x1f83d9ab] := by decide +kernel
theorem test_round_last : (after .uopRound (State.reset.goTo .round 63)).status = 0x00000501 := by decide
theorem test_feed_wraps :
    (after .uopFeed ((State.reset.setH (Vector.replicate 8 0xffffffff)).setA (Vector.replicate 8 1)
      |>.goTo .feed 0)).h = Vector.replicate 8 0 := by decide
theorem test_feed_next_block :
    (after .uopFeed ((State.reset.setBlocks 0 2).goTo .feed 0)).status = 0x00000101 := by decide
theorem test_final_digest : (after .uopFinal Tests.abcFinal).dg[31] = 0xad := by decide
theorem test_final_status : (after .uopFinal Tests.abcFinal).status = 0x00000702 := by decide

/-! ## The table of R191, a row a theorem -/

/-- Eight constants from `K[i]` on. -/
def Tests.kRow (i : Nat) : List Word := (kTable.toList.drop i).take 8

theorem test_k_row_0 :
    Tests.kRow 0 = [0x428a2f98, 0x71374491, 0xb5c0fbcf, 0xe9b5dba5,
      0x3956c25b, 0x59f111f1, 0x923f82a4, 0xab1c5ed5] := by decide +kernel
theorem test_k_row_8 :
    Tests.kRow 8 = [0xd807aa98, 0x12835b01, 0x243185be, 0x550c7dc3,
      0x72be5d74, 0x80deb1fe, 0x9bdc06a7, 0xc19bf174] := by decide +kernel
theorem test_k_row_16 :
    Tests.kRow 16 = [0xe49b69c1, 0xefbe4786, 0x0fc19dc6, 0x240ca1cc,
      0x2de92c6f, 0x4a7484aa, 0x5cb0a9dc, 0x76f988da] := by decide +kernel
theorem test_k_row_24 :
    Tests.kRow 24 = [0x983e5152, 0xa831c66d, 0xb00327c8, 0xbf597fc7,
      0xc6e00bf3, 0xd5a79147, 0x06ca6351, 0x14292967] := by decide +kernel
theorem test_k_row_32 :
    Tests.kRow 32 = [0x27b70a85, 0x2e1b2138, 0x4d2c6dfc, 0x53380d13,
      0x650a7354, 0x766a0abb, 0x81c2c92e, 0x92722c85] := by decide +kernel
theorem test_k_row_40 :
    Tests.kRow 40 = [0xa2bfe8a1, 0xa81a664b, 0xc24b8b70, 0xc76c51a3,
      0xd192e819, 0xd6990624, 0xf40e3585, 0x106aa070] := by decide +kernel
theorem test_k_row_48 :
    Tests.kRow 48 = [0x19a4c116, 0x1e376c08, 0x2748774c, 0x34b0bcb5,
      0x391c0cb3, 0x4ed8aa4a, 0x5b9cca4f, 0x682e6ff3] := by decide +kernel
theorem test_k_row_56 :
    Tests.kRow 56 = [0x748f82ee, 0x78a5636f, 0x84c87814, 0x8cc70208,
      0x90befffa, 0xa4506ceb, 0xbef9a3f7, 0xc67178f2] := by decide +kernel

/-! ## A step and the host's words -/

theorem test_step_read : step (State.reset.withFetchWord 40 0x0000000000) = exec .rdId State.reset := rfl
theorem test_step_command :
    step (State.reset.withFetchWord 32 0x00000101) = exec (.wrCmd 0x101 0xF) State.reset := rfl
theorem test_step_micro_op :
    step (State.reset.withFetchWord 8 0x2) = exec .uopSched (State.reset.goTo .sched 16) := rfl
theorem test_pad_abc :
    Contract.pad [0x61, 0x62, 0x63]
      = [0x61, 0x62, 0x63, 0x80] ++ List.replicate 52 0x00 ++ [0, 0, 0, 0, 0, 0, 0, 0x18] := by decide

/-- Vector V2 (95_test_vectors.md section 1), through the contracts. -/
theorem test_digest_abc : Contract.digest [0x61, 0x62, 0x63] = serialize Tests.abcH := by decide +kernel

/-! ## Every statement's hypotheses can be met

One witness for each clause, at a boundary of its range. -/

/-- The invariant at a run's start. -/
theorem witness_inv_load : Tests.abcLoad.Inv where
  cfg_wf := by decide
  mem_wf := by decide
  mem_within := by decide
  step_in_range := by show Tests.abcLoad.stepIdx = 0; decide
  blocks_in_range := by show Tests.abcLoad.kblk < Tests.abcLoad.nblk; decide
  run_fixed := fun _ => by decide
  digest_held := fun h => absurd h (by decide)

/-- The invariant at the end of a run. -/
theorem witness_inv_done : Tests.abcDone.Inv where
  cfg_wf := by decide
  mem_wf := by decide
  mem_within := by decide
  step_in_range := by show Tests.abcDone.stepIdx = 0; decide
  blocks_in_range := by show Tests.abcDone.kblk = Tests.abcDone.nblk; decide
  run_fixed := fun h => absurd h (by decide)
  digest_held := fun _ => rfl

theorem witness_DecodeEncodeRoundTrip :
    Config.default.wf = true ∧ (Instr.wrMsg 0xFFC 0xAABBCCDD 0x9).wellFormed Config.default = true
      ∧ (Instr.rdRsv 0xFFFFFFFC).wellFormed Config.default = true
      ∧ (Instr.cmdIllegal 3).wellFormed Config.default = true := by decide

theorem witness_EncodeDecodeTransaction :
    ({ msgMemBytes := 4 } : Config).wf = true ∧ ({ msgMemBytes := 0xFFFFF000 } : Config).wf = true := by
  decide

theorem witness_SigmaFunctionBits : (0 : Nat) < 32 ∧ (31 : Nat) < 32 := by decide

theorem witness_ChooseAndMajorityBits : (0 : Nat) < 32 ∧ (31 : Nat) < 32 := by decide

theorem witness_BusRowsSelect : ("WR_MSG", 0x100001000, 0x1FFFFF000) ∈ busRows := by decide

theorem witness_StepRunsDecodedInstruction :
    (State.reset.withFetchWord 40 0).inputs = [.bus (readTx 0)]
      ∧ (State.reset.withFetchWord 8 1).inputs = [.core]
      ∧ decodeUop (State.reset.withFetchWord 8 1).phase.code = some .uopLoad
      ∧ Tests.abcLoad.inputs = [] ∧ decodeUop Tests.abcLoad.phase.code = some .uopLoad
      ∧ (State.reset.setInputs [.core]).inputs = [.core] ∧ decodeUop State.reset.phase.code = none
      ∧ State.reset.inputs = [] ∧ (State.reset.setInputs [.reset]).inputs = [.reset] := by decide

/-- The boundary addresses of each case of a write; the last three select no row. -/
theorem witness_BusWriteSelectsRule :
    (Tests.p1 [Script.wr 0x007 1 0xF]).inputs = [.bus (writeTx 0x007 1 0xF)]
      ∧ (writeTx 0x007 1 0xF).write = true ∧ (0x004 : Word) = (0x007 >>> 2) <<< 2
      ∧ (0x00C : Word) = (0x00C >>> 2) <<< 2 ∧ (0x1FFC : Word) = (0x1FFF >>> 2) <<< 2
      ∧ (0x1FFC : Word).toNat < 0x1000 + (Tests.p1 []).cfg.cap
      ∧ (0xFFC : Word) = (0xFFF >>> 2) <<< 2 ∧ (0xFFC : Word).toNat < 0x1000
      ∧ (0x2000 : Word) = (0x2000 >>> 2) <<< 2
      ∧ ¬ (0x2000 : Word).toNat < 0x1000 + (Tests.p1 []).cfg.cap := by decide

/-- The boundary addresses of each window of a read, and of the reserved ranges. -/
theorem witness_BusReadSelectsRule :
    (Tests.p1 [Script.rd 0x003]).inputs = [.bus (readTx 0x003)] ∧ (readTx 0x003).write = false
      ∧ (0x000 : Word) = (0x003 >>> 2) <<< 2 ∧ (0x018 : Word) = (0x01B >>> 2) <<< 2
      ∧ (0x03C : Word).toNat = 0x020 + 4 * (7 : Fin 8).val
      ∧ (0x07C : Word).toNat = 0x040 + 4 * (15 : Fin 16).val
      ∧ (0x080 : Word).toNat = 0x080 + 4 * (0 : Fin 8).val
      ∧ (0x1FFC : Word).toNat < 0x1000 + (Tests.p1 []).cfg.cap
      ∧ (0x01C : Word) = (0x01F >>> 2) <<< 2 ∧ 0x0A0 ≤ (0x0A0 : Word).toNat
      ∧ (0xFFC : Word).toNat < 0x1000 ∧ 0x1000 + (Tests.p1 []).cfg.cap ≤ (0x2000 : Word).toNat := by
  decide

theorem witness_EveryStepCompletes :
    decodeUop 4 = some .uopRound ∧ ∃ u, exec .uopRound (Tests.inPhase .round) = .next u :=
  ⟨by decide, _, rfl⟩

theorem witness_CoreRestsInIdleAndDone :
    State.reset.phase = .idle ∧ State.reset.coreNext = true ∧ Tests.abcDone.phase = .done
      ∧ (Tests.abcDone.setInputs [.core]).coreNext = true := by decide

theorem witness_StartCommand :
    Tests.abcLoad.busy = true
      ∧ ((State.reset.setMsgLen 0x1001).busy = false ∧ State.reset.cfg.cap < 0x1001)
      ∧ (State.reset.setMsgLen 0x1000).busy = false
      ∧ (State.reset.setMsgLen 0x1000).msgLen.toNat ≤ State.reset.cfg.cap
      ∧ State.reset.cfg.wf = true := by decide

theorem witness_ClearCommand : Tests.abcLoad.busy = true ∧ Tests.abcDone.busy = false := by decide

theorem witness_CommandWrite :
    (3 : Word) ≠ 0x00000000 ∧ (3 : Word) ≠ 0x00000001 ∧ (3 : Word) ≠ 0x00000002 := by decide

theorem witness_WriteMessageLength : Tests.abcFinal.busy = true ∧ State.reset.busy = false := by decide

theorem witness_WriteMessageBytes :
    State.reset.cfg.wf = true ∧ (0x1FFC : Word).toNat % 4 = 0 ∧ (0x1FFC : Word).toNat = 0x1000 + 0xFFC
      ∧ 0xFFC < State.reset.cfg.cap ∧ State.reset.busy = false
      ∧ Tests.abcLoad.cfg.wf = true ∧ Tests.abcLoad.busy = true ∧ 0xFFC < Tests.abcLoad.cfg.cap := by
  decide

/-- An address at each end of each reserved range, once for a write and once for a read. -/
theorem witness_ReservedAddresses :
    (∀ a ∈ ([0x1C, 0x1F] : List Word), 0x1C ≤ a.toNat ∧ a.toNat ≤ 0x1F)
      ∧ (∀ a ∈ ([0xA0, 0xFFF] : List Word), 0xA0 ≤ a.toNat ∧ a.toNat ≤ 0xFFF)
      ∧ (∀ a ∈ ([0x2000, 0xFFFFFFFF] : List Word),
          State.reset.cfg.wf = true ∧ 0x1000 + State.reset.cfg.cap ≤ a.toNat)
      ∧ (writeTx 0x1C 1 0xF).write = true ∧ (readTx 0x1C).write = false := by
  refine ⟨by simp, by simp, ?_, rfl, rfl⟩
  intro a ha
  refine ⟨by decide, ?_⟩
  have hc : State.reset.cfg.cap = 0x1000 := rfl
  rw [hc]
  revert a
  simp

theorem witness_ReadMessageBytes :
    (0x1000 : Word).toNat = 0x1000 + 0 ∧ (3 : Nat) < 4
      ∧ (State.reset.setMem [(3, 0x64)]).mem.get? (0 + 3) = some 0x64 := by decide

theorem witness_ReadDigestWindows : Tests.abcDone.phase = .done ∧ State.reset.phase ≠ .done := by decide

theorem witness_ReadHexWindow :
    Tests.abcDone.phase = .done ∧ State.reset.phase ≠ .done
      ∧ (0xb : Nat) = Tests.abcDone.dg[0].toNat / 16 ∧ (0xd : Nat) = Tests.abcDone.dg[31].toNat % 16 := by
  decide

theorem witness_HexRenderingShape :
    Contract.hex Tests.abcDone.dg = Contract.hex (serialize Tests.abcH) := rfl

/-- `n` = 55 fills a block to the length field; `n` = 3 has zeros between. -/
theorem witness_PadBytes :
    (55 : Nat) < 2 ^ 32 ∧ (54 : Nat) < 64 * blockCount 55 ∧ 55 < 64 * blockCount 55
      ∧ 64 * blockCount 55 - 8 ≤ 56 ∧ 56 < 64 * blockCount 55 ∧ 63 < 64 * blockCount 55
      ∧ (3 : Nat) < 4 ∧ 4 < 64 * blockCount 3 - 8 ∧ 55 < 64 * blockCount 3 - 8 := by decide

theorem witness_PadIsSourcePadding : ([0x61, 0x62, 0x63] : List Byte).length < 2 ^ 32 := by norm_num

theorem witness_LoadAssemblesBlock :
    Tests.abcLoad.kblk < Tests.abcLoad.nblk
      ∧ ∀ o, o < Tests.abcLoad.msgLen.toNat →
          Tests.abcLoad.mem.get? o = some (([0x61, 0x62, 0x63] : List Byte).getD o 0) := by decide

theorem witness_SchedComputesWord :
    (Tests.inPhase .sched).stepIdx.toNat = 16 ∧ (State.reset.goTo .sched 63).stepIdx.toNat = 63 := by
  decide

theorem witness_RoundUpdatesWorkingRegisters :
    (Tests.inPhase .round).stepIdx.toNat = 0 ∧ (State.reset.goTo .round 63).stepIdx.toNat = 63 := by
  decide

theorem witness_FeedAddsWorkingRegisters :
    (State.reset.setBlocks 0 2).kblk + 1 < (State.reset.setBlocks 0 2).nblk
      ∧ ¬ (State.reset.setBlocks 0 1).kblk + 1 < (State.reset.setBlocks 0 1).nblk := by decide

theorem witness_DigestWordIsHashWord : Tests.abcDone.Inv ∧ Tests.abcDone.phase = .done :=
  ⟨witness_inv_done, rfl⟩

theorem witness_StepKeepsInvariant : Tests.abcLoad.Inv ∧ ∃ u, step Tests.abcLoad = .next u :=
  ⟨witness_inv_load, _, rfl⟩

theorem witness_ResetValues : (Tests.abcLoad.setInputs [.reset]).inputs = [.reset] := rfl

theorem witness_ReadsHaveNoSideEffect :
    (Tests.abcLoad.setInputs [Script.rd 0x1000]).inputs = [.bus (readTx 0x1000)]
      ∧ (readTx 0x1000).write = false := ⟨rfl, rfl⟩

theorem witness_OnlyReadsSetReadData :
    (∃ u, step (Tests.abcIdle.setInputs [Script.cmdStart]) = .next u)
      ∧ ∀ t is, (Tests.abcIdle.setInputs [Script.cmdStart]).inputs = .bus t :: is → t.write = true := by
  refine ⟨⟨_, rfl⟩, ?_⟩
  intro t is h
  cases h
  rfl

/-- The events of `FlagCauses`: an accepted CLEAR, a reset, an illegal word (the least), a refused write
(the ends of the guarded ranges) while busy, and a START with a length one above the memory. -/
theorem witness_FlagCauses :
    Config.default.wf = true
      ∧ (∃ u, step (Tests.abcDone.setInputs [Script.cmdClear]) = .next u)
      ∧ Tests.abcDone.busy = false ∧ (Tests.abcDone.setInputs [Script.cmdClear]).commandNext 0x00000002
      ∧ (Tests.abcLoad.setInputs [.reset]).resetNext = true
      ∧ (State.reset.setInputs [Script.wr 0x007 3 0]).commandNext 3
      ∧ Tests.abcLoad.busy = true
      ∧ (∀ a ∈ ([0x00C, 0x00F, 0x1000, 0x1FFF] : List Word),
          (Tests.abcLoad.setInputs [Script.wr a 0 0xF]).guardedNext)
      ∧ (State.reset.setInputs [Script.cmdStart]).commandNext 0x00000001
      ∧ State.reset.cfg.cap < (0x1001 : Word).toNat := by
  refine ⟨by decide, ⟨_, rfl⟩, by decide, ⟨4, rfl, by decide, by decide⟩, by decide,
    ⟨7, rfl, by decide, by decide⟩, by decide, ?_, ⟨4, rfl, by decide, by decide⟩, by decide⟩
  intro a ha
  simp only [List.mem_cons, List.not_mem_nil, or_false] at ha
  rcases ha with rfl | rfl | rfl | rfl <;> exact .inr (.inr ⟨_, _, rfl, by decide⟩)

theorem witness_OneFlagPerStep :
    (∃ u, step (Tests.abcLoad.setInputs [.core]) = .next u)
      ∧ (Tests.abcLoad.setInputs [.core]).coreNext = true := ⟨⟨_, rfl⟩, rfl⟩

/-- Each register file is changed by some step, outside reset. -/
theorem witness_WhoWritesTheRegisterFiles :
    (step Tests.abcIdle = .next (after .cmdNop Tests.abcIdle) ∧ Tests.abcIdle.resetNext = false)
      ∧ (after .cmdStart Tests.abcIdle).h ≠ Tests.abcIdle.h
      ∧ (after .uopCinit (Tests.abcLoad.goTo .cinit 0)).a ≠ Tests.abcLoad.a
      ∧ (after .uopLoad Tests.abcLoad).w[0] ≠ Tests.abcLoad.w[0]
      ∧ (after .uopFinal Tests.abcFinal).dg[0] ≠ Tests.abcFinal.dg[0] :=
  ⟨⟨rfl, rfl⟩, by decide, by decide, by decide, by decide⟩

theorem witness_DoneRisesAndFalls :
    (∃ u, step (Tests.abcFinal.setInputs [.core]) = .next u) ∧ Tests.abcFinal.doneOut = false
      ∧ (∃ u, step (Tests.abcDone.setInputs [Script.cmdStart]) = .next u)
      ∧ Tests.abcDone.doneOut = true := ⟨⟨_, rfl⟩, rfl, ⟨_, rfl⟩, rfl⟩

theorem witness_HostCannotDisturbRun :
    (Tests.abcLoad.setInputs [Script.cmdClear, Script.setLen 5, Script.rd 0x1000]).busy = true
      ∧ [Script.cmdClear, Script.setLen 5, Script.rd 0x1000].all Input.isBus = true := by decide

/-- Two states that differ in the message's bytes only. -/
theorem witness_ProgressIsDataIndependent :
    SameSequencer Tests.abcLoad (Tests.abcLoad.setMem [])
      ∧ SameSurroundings Tests.abcLoad (Tests.abcLoad.setMem [])
      ∧ (Tests.abcLoad.setMem []).msgLen = Tests.abcLoad.msgLen :=
  ⟨⟨rfl, rfl, rfl, rfl⟩, ⟨rfl, rfl⟩, rfl⟩

/-- `Tests.abcIdle` with START as the next event. -/
def Tests.abcStart : State := Tests.abcIdle.setInputs [Script.cmdStart]

theorem witness_RunReachesDone :
    Tests.abcStart.cfg.wf = true ∧ Tests.abcStart.busy = false
      ∧ Tests.abcStart.msgLen.toNat ≤ Tests.abcStart.cfg.cap
      ∧ Tests.abcStart.inputs = [Script.cmdStart] := by decide

theorem witness_RunComputesDigest :
    Tests.abcStart.cfg.wf = true ∧ Tests.abcStart.busy = false
      ∧ ([0x61, 0x62, 0x63] : List Byte).length ≤ Tests.abcStart.cfg.cap
      ∧ Tests.abcStart.msgLen.toNat = ([0x61, 0x62, 0x63] : List Byte).length
      ∧ (∀ i, i < ([0x61, 0x62, 0x63] : List Byte).length →
          Tests.abcStart.mem.get? i = ([0x61, 0x62, 0x63] : List Byte)[i]?)
      ∧ Tests.abcStart.inputs = [Script.cmdStart] := by decide

theorem witness_LoadMsgStoresMessage :
    (Tests.p1 [Script.wr 0x1000 0x00636261 0x7]).cfg.wf = true
      ∧ (Tests.p1 [Script.wr 0x1000 0x00636261 0x7]).busy = false
      ∧ ([0x61, 0x62, 0x63] : List Byte).length ≤ (Tests.p1 []).cfg.cap
      ∧ (Tests.p1 [Script.wr 0x1000 0x00636261 0x7]).inputs = Script.loadMsg [0x61, 0x62, 0x63] := by
  decide

/-- Vector P1: its first three lines. -/
theorem witness_UseSequenceYieldsDigest :
    (Tests.p1 []).cfg.wf = true ∧ (Tests.p1 []).busy = false
      ∧ ([0x61, 0x62, 0x63] : List Byte).length ≤ (Tests.p1 []).cfg.cap
      ∧ (Tests.p1 [Script.wr 0x1000 0x00636261 0x7, Script.setLen 3, Script.cmdStart]).inputs
          = Script.loadMsg [0x61, 0x62, 0x63] ++ [Script.setLen (BitVec.ofNat 32 3), Script.cmdStart] := by
  decide

/-- A refused write, then the core's turn, from LOAD. -/
def Tests.abcSchedule : State := Tests.abcLoad.setInputs [Script.setLen 5, .core]

/-- The turn alone reaches SCHED, and is busy there. -/
theorem witness_InterleavingDoesNotMatter :
    Tests.abcSchedule.Inv
      ∧ (∀ o, o < Tests.abcSchedule.msgLen.toNat → (Tests.abcSchedule.mem.get? o).isSome = true)
      ∧ Tests.abcSchedule.inputs.any Input.isReset = false
      ∧ core.run (Tests.abcSchedule.inputs.countP Input.isCore) (Tests.abcSchedule.setInputs [])
          = .next (after .uopLoad Tests.abcLoad)
      ∧ (after .uopLoad Tests.abcLoad).busy = true :=
  have h := witness_inv_load
  ⟨⟨h.1, h.2, h.3, h.4, h.5, h.6, h.7⟩, by decide, by decide, rfl, rfl⟩
end

/-! ## The padded bytes `P(i)` of R152, case by case -/

namespace Sys2Proof.Machine

/-- R151: a message of `n` bytes, the byte 0x80, `(119 − n mod 64) mod 64` zeros and the 8 bytes of the length
fill `blockCount n` blocks. -/
theorem padded_length (n : Nat) : n + (1 + ((119 - n % 64) % 64 + 8)) = 64 * blockCount n := by
  unfold blockCount
  omega

section
variable (msg : Nat → Byte) {n i : Nat} (x : Byte)

theorem padByte_of_lt (h : i < n) : padByte msg n (blockCount n) i x = msg i := by
  have := padded_length n
  rw [padByte, if_pos (by omega), if_pos h]

theorem padByte_self : padByte msg n (blockCount n) n x = 0x80 := by
  have := padded_length n
  rw [padByte, if_pos (by omega), if_neg (by omega), if_pos rfl]

theorem padByte_zero (hlo : n < i) (hhi : i < 64 * blockCount n - 8) :
    padByte msg n (blockCount n) i x = 0x00 := by
  rw [padByte, if_pos (by omega), if_neg (by omega), if_neg (by omega), if_pos hhi]

theorem padByte_lengthByte {j : Nat} (hj : j < 8) :
    padByte msg n (blockCount n) (64 * blockCount n - 8 + j) x = lengthByte n j := by
  have := padded_length n
  rw [padByte, if_pos (by omega), if_neg (by omega), if_neg (by omega), if_neg (by omega),
    Nat.add_sub_cancel_left]

/-- `P(i)` depends on the message bytes only, for `i` below `64 N`. -/
theorem padByte_congr {f g : Nat → Byte} {nb : Nat} (y : Byte) (hi : i < 64 * nb)
    (h : i < n → f i = g i) : padByte f n nb i x = padByte g n nb i y := by
  unfold padByte
  rw [if_pos hi, if_pos hi]
  split
  next hn => exact h hn
  next => rfl

end

end Sys2Proof.Machine

/-! ## The source's contracts: round, padding, blocks and schedule -/

namespace Sys2Proof.Machine.Contract

/-- R13: the source assigns from `h` down to `a`, so each assignment reads a register that still holds its
old value, and the sequential form is the simultaneous one. -/
theorem round_eq_roundFn (v : Vector Word 8) (k w : Word) : round v k w = roundFn v k w := by
  obtain ⟨⟨l⟩, hl⟩ := v
  match l, hl with
  | [_, _, _, _, _, _, _, _], _ => rfl

/-- The source's rounds over a list of round constants and schedule words, in order. -/
def rounds (kws : List (Word × Word)) (v : Vector Word 8) : Vector Word 8 :=
  kws.foldl (fun v kw => round v kw.1 kw.2) v

theorem rounds_cons (kw : Word × Word) (kws : List (Word × Word)) (v : Vector Word 8) :
    rounds (kw :: kws) v = rounds kws (roundFn v kw.1 kw.2) := by
  rw [← round_eq_roundFn]
  rfl

theorem compress_eq (ws : List Word) (h : Vector Word 8) :
    compress ws h = Vector.ofFn fun j : Fin 8 => h[j] + (rounds (kTable.toList.zip ws) h)[j] := rfl

theorem length_pad (msg : List Byte) : (pad msg).length = 64 * blockCount msg.length := by
  simp only [pad, List.length_append, List.length_cons, List.length_nil, List.length_replicate,
    List.length_map, List.length_range, ← padded_length]
  omega

/-- R151 with R152: the source's padded bytes are the bytes `P(i)` in order. -/
theorem pad_eq_map_padByte (msg : List Byte) (x : Byte) :
    pad msg = (List.range (64 * blockCount msg.length)).map fun i =>
      padByte (fun o => msg.getD o 0) msg.length (blockCount msg.length) i x := by
  have hlen := padded_length msg.length
  have hmsg : (List.range msg.length).map (fun i =>
      padByte (fun o => msg.getD o 0) msg.length (blockCount msg.length) i x) = msg :=
    List.ext_getElem (by simp) fun i _ h => by
      rw [List.getElem_map, List.getElem_range, padByte_of_lt _ _ h, List.getD_eq_getElem _ _ h]
  rw [show List.range (64 * blockCount msg.length)
      = List.range (msg.length + (1 + ((119 - msg.length % 64) % 64 + 8))) by rw [hlen]]
  simp only [List.range_add, List.map_append, List.map_map, hmsg, pad, List.append_assoc]
  congr 3
  · simp [padByte_self]
  · refine (List.ext_getElem (by simp) fun i _ h => ?_)
    have hi : i < (119 - msg.length % 64) % 64 := by simpa using h
    simp only [List.getElem_replicate, List.getElem_map, List.getElem_range, Function.comp_apply]
    exact (padByte_zero _ _ (by omega) (by omega)).symm
  · refine List.map_congr_left fun j hj => ?_
    have hidx : msg.length + (1 + ((119 - msg.length % 64) % 64 + j))
        = 64 * blockCount msg.length - 8 + j := by omega
    simp only [Function.comp_apply, hidx]
    exact (padByte_lengthByte _ _ (List.mem_range.1 hj)).symm

/-- The words of `4 m` listed bytes. -/
theorem words_map_range (m : Nat) (f : Nat → Byte) :
    words ((List.range (4 * m)).map f)
      = (List.range m).map fun i => be32 (f (4 * i)) (f (4 * i + 1)) (f (4 * i + 2)) (f (4 * i + 3)) := by
  induction m generalizing f with
  | zero => rfl
  | succ m ih =>
    rw [show 4 * (m + 1) = 4 + 4 * m by omega, List.range_add, List.range_succ_eq_map (n := m)]
    simp only [List.map_append, List.map_map, List.map_cons]
    refine congrArg (be32 (f 0) (f 1) (f 2) (f 3) :: ·) ((ih _).trans ?_)
    refine List.map_congr_left fun i _ => ?_
    simp only [Function.comp_apply, Nat.succ_eq_add_one, show 4 * (i + 1) = 4 + 4 * i by omega,
      Nat.add_assoc]

/-- Block `k` (R153) of a list that is given byte by byte. -/
theorem block_map_range (f : Nat → Byte) {N k : Nat} (hk : k < N) :
    block ((List.range (64 * N)).map f) k = (List.range 64).map fun i => f (64 * k + i) := by
  refine List.ext_getElem ?_ fun i _ _ => by simp [block]
  simp only [block, List.length_take, List.length_drop, List.length_map, List.length_range]
  omega

/-- R173: `extend` appends to the first `t` words of a schedule the word that SCHED computes from them. -/
theorem extend_take_succ (k : Nat) (w : Vector Word 64) {t : Nat} (hlo : 16 ≤ t) (hhi : t < 64) :
    extend (k + 1) (w.toList.take t)
      = extend k ((w.set t (w[t - 16] + s0 w[t - 15] + w[t - 7] + s1 w[t - 2])).toList.take
          (t + 1)) := by
  have happend (x : Word) : (w.set t x).toList.take (t + 1) = w.toList.take t ++ [x] := by
    rw [Vector.toList_set, List.take_succ_eq_append_getElem (by simpa using hhi)]
    simp [List.take_set_of_le]
  have hget (d : Nat) (hd : 0 < d) (hdt : d ≤ t) : (w.toList.take t).getD (t - d) 0 = w[t - d] := by
    rw [List.getD_eq_getElem _ _ (by simp; omega)]
    simp
  have hlen : (w.toList.take t).length = t := by simp; omega
  rw [happend, extend, hlen, hget 16 (by omega) hlo, hget 15 (by omega) (by omega),
    hget 7 (by omega) (by omega), hget 2 (by omega) (by omega)]

end Sys2Proof.Machine.Contract

/-! ## The words that LOAD takes from the message -/

namespace Sys2Proof.Machine

/-- The host has written the message `msg`, its length stands in `MSG_LEN`, and `NBLK` is its block
count. -/
structure State.HoldsMessage (s : State) (msg : List Byte) : Prop where
  len : s.msgLen.toNat = msg.length
  bytes : ∀ i, i < msg.length → s.mem.get? i = msg[i]?
  blocks : s.nblk.toNat = blockCount msg.length

/-- The block that LOAD works on, byte by byte. -/
theorem State.HoldsMessage.block_eq {s : State} {msg : List Byte} (hm : s.HoldsMessage msg)
    (hk : s.kblk < s.nblk) :
    Contract.block (Contract.pad msg) s.kblk.toNat
      = (List.range 64).map fun i => s.padByteAt (64 * s.kblk.toNat + i) := by
  have hk' : s.kblk.toNat < blockCount msg.length := hm.blocks ▸ hk
  rw [Contract.pad_eq_map_padByte msg 0, Contract.block_map_range _ hk']
  refine List.map_congr_left fun i hi => ?_
  have hi' := List.mem_range.1 hi
  unfold State.padByteAt
  rw [hm.len, hm.blocks]
  refine padByte_congr _ _ (by omega) fun h => (Memory.read_of_get? _ ?_).symm
  rw [hm.bytes _ h, List.getD_eq_getElem _ _ h, List.getElem?_eq_getElem h]

/-- R174: LOAD puts the words of the block into `W[0..15]`. -/
theorem take_w_after_uopLoad {s : State} {msg : List Byte} (hm : s.HoldsMessage msg)
    (hk : s.kblk < s.nblk) :
    (after .uopLoad s).w.toList.take 16
      = Contract.words (Contract.block (Contract.pad msg) s.kblk.toNat) := by
  have hwords : Contract.words (Contract.block (Contract.pad msg) s.kblk.toNat)
      = (List.range 16).map s.blockWord := by
    rw [hm.block_eq hk, show (64 : Nat) = 4 * 16 from rfl, Contract.words_map_range]
    rfl
  rw [hwords]
  refine List.ext_getElem (by simp) fun i h₁ h₂ => ?_
  have hi : i < 16 := by simpa using h₂
  simp [after_uopLoad, hi]

/-! ## Turns of the core in a row -/

/-- What no number of turns of the core changes. -/
theorem iterate_coreStep_frame (k : Nat) (s : State) :
    (coreStep^[k] s).inputs = s.inputs ∧ (coreStep^[k] s).mem = s.mem
      ∧ (coreStep^[k] s).msgLen = s.msgLen ∧ (coreStep^[k] s).nblk = s.nblk
      ∧ SameFlags s (coreStep^[k] s) := by
  induction k with
  | zero => exact ⟨rfl, rfl, rfl, rfl, rfl, rfl, rfl⟩
  | succ k ih =>
    rw [Function.iterate_succ_apply']
    simpa only [SameFlags, coreStep_frame] using ih

theorem run_succ_of_step {M : Host.Core} {s u : M.State} (k : Nat) (h : M.step s = .next u) :
    M.run (k + 1) s = M.run k u := by
  rw [Host.Core.run, h]

/-- With no event waiting every step is a turn of the core (log 1). -/
theorem run_of_no_inputs (k : Nat) (s : State) (h : s.inputs = []) :
    core.run k s = .next (coreStep^[k] s) := by
  induction k generalizing s with
  | zero => rfl
  | succ k ih =>
    obtain ⟨-, hinputs, -⟩ := coreStep_frame s
    exact (run_succ_of_step (M := core) k (step_nil s h)).trans (ih _ (hinputs.trans h))

/-! ## The turns of one phase -/

theorem coreStep_load {s : State} (h : s.phase = .load) : coreStep s = after .uopLoad s := by
  rw [coreStep_eq, h]

theorem coreStep_sched {s : State} (h : s.phase = .sched) : coreStep s = after .uopSched s := by
  rw [coreStep_eq, h]

theorem coreStep_cinit {s : State} (h : s.phase = .cinit) : coreStep s = after .uopCinit s := by
  rw [coreStep_eq, h]

theorem coreStep_round {s : State} (h : s.phase = .round) : coreStep s = after .uopRound s := by
  rw [coreStep_eq, h]

theorem coreStep_feed {s : State} (h : s.phase = .feed) : coreStep s = after .uopFeed s := by
  rw [coreStep_eq, h]

theorem coreStep_final {s : State} (h : s.phase = .final) : coreStep s = after .uopFinal s := by
  rw [coreStep_eq, h]

theorem State.stepIdx_eq_63_iff (s : State) : s.stepIdx = 63 ↔ s.stepIdx.toNat = 63 := by
  rw [← BitVec.toNat_inj]
  rfl

/-- SCHED (R175) at a `STEP` of its range. -/
theorem coreStep_sched_fields {s : State} {t : Nat} (hp : s.phase = .sched) (ht : s.stepIdx.toNat = t)
    (hlo : 16 ≤ t) (hhi : t < 64) :
    (coreStep s).w = s.w.set t (s.w[t - 16] + s0 s.w[t - 15] + s.w[t - 7] + s1 s.w[t - 2])
      ∧ (coreStep s).h = s.h ∧ (coreStep s).kblk = s.kblk
      ∧ (t = 63 → (coreStep s).phase = .cinit)
      ∧ (t < 63 → (coreStep s).phase = .sched ∧ (coreStep s).stepIdx.toNat = t + 1) := by
  subst ht
  have hnext : s.nextScheduleWord = s.w[s.stepIdx.toNat - 16] + s0 s.w[s.stepIdx.toNat - 15]
      + s.w[s.stepIdx.toNat - 7] + s1 s.w[s.stepIdx.toNat - 2] := dif_pos ⟨hlo, hhi⟩
  have hset (x : Word) : s.w.setIfInBounds s.stepIdx.toNat x = s.w.set s.stepIdx.toNat x := by
    ext i hi
    simp [Vector.getElem_set, Vector.getElem_setIfInBounds]
  rw [coreStep_sched hp]
  simp only [after_uopSched, hnext, hset, s.stepIdx_eq_63_iff, hp]
  split
  next h => simp [h]
  next h => simp [h]; omega

/-- ROUND (R198) at a `STEP` of its range. -/
theorem coreStep_round_fields {s : State} {t : Nat} (hp : s.phase = .round) (ht : s.stepIdx.toNat = t)
    (hhi : t < 64) :
    (coreStep s).a = roundFn s.a kTable[t] s.w[t] ∧ (coreStep s).w = s.w
      ∧ (coreStep s).h = s.h ∧ (coreStep s).kblk = s.kblk
      ∧ (t = 63 → (coreStep s).phase = .feed)
      ∧ (t < 63 → (coreStep s).phase = .round ∧ (coreStep s).stepIdx.toNat = t + 1) := by
  subst ht
  have hk : s.roundConst = kTable[s.stepIdx.toNat] := dif_pos hhi
  have hw : s.roundWord = s.w[s.stepIdx.toNat] := dif_pos hhi
  rw [coreStep_round hp]
  simp only [after_uopRound, hk, hw, s.stepIdx_eq_63_iff, hp]
  split
  next h => simp [h]
  next h => simp [h]; omega

/-- From SCHED at `STEP = 63 - m`, `m + 1` turns complete the schedule of the words below `STEP` and reach
CINIT. -/
theorem iterate_sched (m : Nat) (hm : m ≤ 47) (s : State) (hp : s.phase = .sched)
    (ht : s.stepIdx.toNat = 63 - m) :
    (coreStep^[m + 1] s).phase = .cinit
      ∧ (coreStep^[m + 1] s).w.toList = Contract.extend (m + 1) (s.w.toList.take (63 - m))
      ∧ (coreStep^[m + 1] s).h = s.h ∧ (coreStep^[m + 1] s).kblk = s.kblk := by
  obtain ⟨hw, hh, hk, hlast, hnext⟩ := coreStep_sched_fields hp ht (by omega) (by omega)
  rw [Contract.extend_take_succ m s.w (by omega) (by omega), ← hw, Function.iterate_succ_apply, ← hh,
    ← hk]
  cases m with
  | zero => exact ⟨hlast rfl, (List.take_of_length_le (by simp)).symm, rfl, rfl⟩
  | succ m =>
    obtain ⟨hp', ht'⟩ := hnext (by omega)
    rw [show 63 - (m + 1) + 1 = 63 - m by omega] at ht' ⊢
    exact iterate_sched m (by omega) (coreStep s) hp' ht'

/-- From ROUND at `STEP = 63 - m`, `m + 1` turns run the source's rounds from `STEP` on and reach FEED. -/
theorem iterate_round (m : Nat) (hm : m ≤ 63) (s : State) (hp : s.phase = .round)
    (ht : s.stepIdx.toNat = 63 - m) :
    (coreStep^[m + 1] s).phase = .feed
      ∧ (coreStep^[m + 1] s).a = Contract.rounds ((kTable.toList.zip s.w.toList).drop (63 - m)) s.a
      ∧ (coreStep^[m + 1] s).h = s.h ∧ (coreStep^[m + 1] s).kblk = s.kblk := by
  obtain ⟨ha, hw, hh, hk, hlast, hnext⟩ := coreStep_round_fields hp ht (by omega)
  have hrounds : Contract.rounds ((kTable.toList.zip s.w.toList).drop (63 - m)) s.a
      = Contract.rounds ((kTable.toList.zip s.w.toList).drop (63 - m + 1)) (coreStep s).a := by
    rw [List.drop_eq_getElem_cons (by simp; omega), Contract.rounds_cons, ha]
    simp
  rw [hrounds, Function.iterate_succ_apply, ← hh, ← hk, ← hw]
  cases m with
  | zero => exact ⟨hlast rfl, by rw [List.drop_of_length_le (by simp)]; rfl, rfl, rfl⟩
  | succ m =>
    obtain ⟨hp', ht'⟩ := hnext (by omega)
    rw [show 63 - (m + 1) + 1 = 63 - m by omega] at ht' ⊢
    exact iterate_round m (by omega) (coreStep s) hp' ht'

/-! ## A block, a run -/

/-- LOAD and the 48 turns of SCHED expand the block into `W` (R174, R175). -/
theorem iterate_load {s : State} {msg : List Byte} (hm : s.HoldsMessage msg) (hp : s.phase = .load)
    (hk : s.kblk < s.nblk) :
    (coreStep^[49] s).phase = .cinit
      ∧ (coreStep^[49] s).w.toList
        = Contract.expand (Contract.block (Contract.pad msg) s.kblk.toNat)
      ∧ (coreStep^[49] s).h = s.h ∧ (coreStep^[49] s).kblk = s.kblk := by
  have hsched := iterate_sched 47 le_rfl (after .uopLoad s) rfl rfl
  have hh : (after .uopLoad s).h = s.h := by simp [after_uopLoad]
  have hkblk : (after .uopLoad s).kblk = s.kblk := by simp [after_uopLoad]
  rw [take_w_after_uopLoad hm hk, hh, hkblk] at hsched
  rw [Function.iterate_succ_apply coreStep 48, coreStep_load hp, Contract.expand]
  exact hsched

/-- CINIT and the 64 turns of ROUND run the source's rounds from `H` (R197, R198). -/
theorem iterate_cinit {s : State} (hp : s.phase = .cinit) :
    (coreStep^[65] s).phase = .feed
      ∧ (coreStep^[65] s).a = Contract.rounds (kTable.toList.zip s.w.toList) s.h
      ∧ (coreStep^[65] s).h = s.h ∧ (coreStep^[65] s).kblk = s.kblk := by
  have hround := iterate_round 63 le_rfl (after .uopCinit s) rfl rfl
  rw [Function.iterate_succ_apply coreStep 64, coreStep_cinit hp]
  exact hround

/-- The 115 turns of one block, LOAD, 48 of SCHED, CINIT, 64 of ROUND and FEED, compress it into `H`. -/
theorem iterate_block {s : State} {msg : List Byte} (hm : s.HoldsMessage msg) (hp : s.phase = .load)
    (hk : s.kblk < s.nblk) :
    (coreStep^[115] s).h = Contract.compress
        (Contract.expand (Contract.block (Contract.pad msg) s.kblk.toNat)) s.h
      ∧ (coreStep^[115] s).kblk = s.kblk + 1
      ∧ (coreStep^[115] s).phase = if s.kblk + 1 < s.nblk then .load else .final := by
  obtain ⟨hcp, hcw, hch, hck⟩ := iterate_load hm hp hk
  obtain ⟨hfp, hfa, hfh, hfk⟩ := iterate_cinit hcp
  rw [hcw] at hfa
  rw [hch] at hfa hfh
  rw [hck] at hfk
  have hrun : coreStep^[115] s = coreStep (coreStep^[65] (coreStep^[49] s)) := by
    rw [← Function.iterate_add_apply, ← Function.iterate_succ_apply' coreStep]
  rw [← Function.iterate_add_apply] at hrun hfp hfa hfh hfk
  obtain ⟨-, -, -, hfn, -⟩ := iterate_coreStep_frame (65 + 49) s
  rw [hrun, coreStep_feed hfp, after_uopFeed, hfa, hfh, hfk, hfn, Contract.compress_eq]
  exact ⟨rfl, rfl, rfl⟩

/-- A run at the start of its block `k`, or after its last block. -/
structure State.AtBlock (s : State) (msg : List Byte) (k : Nat) : Prop where
  message : s.HoldsMessage msg
  kblk : s.kblk.toNat = k
  hash : s.h = Contract.hashBlocks (Contract.pad msg) k
  phase : s.phase = if k < blockCount msg.length then .load else .final

/-- Turns of the core leave the message as it is. -/
theorem State.HoldsMessage.iterate {s : State} {msg : List Byte} (hm : s.HoldsMessage msg) (k : Nat) :
    (coreStep^[k] s).HoldsMessage msg := by
  obtain ⟨-, hmem, hlen, hblk, -⟩ := iterate_coreStep_frame k s
  exact ⟨hlen ▸ hm.len, hmem ▸ hm.bytes, hblk ▸ hm.blocks⟩

/-- One block further (R199, R200). -/
theorem State.AtBlock.next {s : State} {msg : List Byte} {k : Nat} (h : s.AtBlock msg k)
    (hk : k < blockCount msg.length) : (coreStep^[115] s).AtBlock msg (k + 1) := by
  obtain ⟨hm, hkblk, hhash, hphase⟩ := h
  have hnblk := hm.blocks
  have hsucc : (s.kblk + 1).toNat = k + 1 := by
    have := s.nblk.isLt
    rw [BitVec.toNat_add_of_lt (by simp; omega), hkblk]
    rfl
  obtain ⟨hh, hk', hp'⟩ := iterate_block hm (hphase.trans (if_pos hk))
    (BitVec.lt_def.2 (by omega))
  refine ⟨hm.iterate 115, hk' ▸ hsucc, ?_, ?_⟩
  · rw [hh, hhash, hkblk]
    rfl
  · simp only [hp', BitVec.lt_def, hsucc, hnblk]

/-- From the start of a run, `115 k` turns complete its first `k` blocks. -/
theorem State.AtBlock.iterate {s : State} {msg : List Byte} (h : s.AtBlock msg 0) (k : Nat)
    (hk : k ≤ blockCount msg.length) : (coreStep^[115 * k] s).AtBlock msg k := by
  induction k with
  | zero => exact h
  | succ k ih =>
    rw [show 115 * (k + 1) = 115 + 115 * k by omega, Function.iterate_add_apply]
    exact (ih (by omega)).next hk

/-- The turns of a whole run end in DONE with the digest (R222, R278). -/
theorem State.AtBlock.iterate_run {s : State} {msg : List Byte} (h : s.AtBlock msg 0) :
    (coreStep^[115 * blockCount msg.length + 1] s).phase = .done
      ∧ (coreStep^[115 * blockCount msg.length + 1] s).dg = Contract.digest msg
      ∧ (coreStep^[115 * blockCount msg.length + 1] s).h
        = Contract.hashBlocks (Contract.pad msg) (blockCount msg.length) := by
  obtain ⟨-, -, hhash, hphase⟩ := h.iterate _ le_rfl
  rw [if_neg (Nat.lt_irrefl _)] at hphase
  have hdigest : Contract.digest msg
      = serialize (Contract.hashBlocks (Contract.pad msg) (blockCount msg.length)) := by
    rw [Contract.digest, Contract.length_pad, Nat.mul_div_cancel_left _ (by decide)]
  rw [Function.iterate_succ_apply', hdigest, ← hhash]
  generalize coreStep^[115 * blockCount msg.length] s = u at hphase ⊢
  simp [coreStep_final hphase, after_uopFinal]

/-! ## START -/

/-- The state in which an accepted START begins its run (R123). -/
def State.started (s : State) : State :=
  ((s.setH iv).setBlocks 0 (BitVec.ofNat 32 (blockCount s.msgLen.toNat))).goTo .load 0

/-- START through the bus, accepted: not busy, and the length fits the memory. -/
theorem step_cmdStart {s : State} {is : List Input} (hi : s.inputs = Script.cmdStart :: is)
    (hb : s.busy = false) (hl : s.msgLen.toNat ≤ s.cfg.cap) :
    step s = .next (s.setInputs is).started := by
  have hb' : ¬ (s.setInputs is).busy = true := by simp [hb]
  have hl' : ¬ (s.setInputs is).cfg.cap < (s.setInputs is).msgLen.toNat := Nat.not_lt.2 hl
  rw [step_bus s _ is hi, after_write _ _ _ rfl, if_pos (by decide), after_command,
    if_neg (by decide), if_pos (by decide), if_neg hb', if_neg hl']
  rfl

/-- A started run is at its block 0. -/
theorem State.started_atBlock {s : State} {msg : List Byte} (hlen : s.msgLen.toNat = msg.length)
    (hbytes : ∀ i, i < msg.length → s.mem.get? i = msg[i]?) : s.started.AtBlock msg 0 := by
  have hn := s.msgLen.isLt
  refine ⟨⟨hlen, hbytes, ?_⟩, rfl, rfl, ?_⟩
  · simp only [State.started, State.goTo_nblk, State.setBlocks_nblk, BitVec.toNat_ofNat, hlen]
    refine Nat.mod_eq_of_lt ?_
    unfold blockCount
    omega
  · rw [if_pos (by unfold blockCount; omega)]
    rfl

end Sys2Proof.Machine

/-! ## The obligations -/

namespace Sys2Proof.Machine

/-- Settles O38: each of the source's assignments reads a register that still holds its old value. -/
theorem sequentialRoundAgrees : Obligations.SequentialRoundAgrees := Contract.round_eq_roundFn

/-- Settles O54: START begins the run at block 0, each block takes 115 turns, and FINAL serializes. -/
theorem runComputesDigest : Obligations.RunComputesDigest := by
  intro s msg _ hb hcap hlen hbytes hi
  have hblock : (s.setInputs []).started.AtBlock msg 0 := State.started_atBlock hlen hbytes
  obtain ⟨-, hmem, hmlen, hnblk, hflags⟩ :=
    iterate_coreStep_frame (115 * blockCount msg.length + 1) (s.setInputs []).started
  obtain ⟨hphase, hdg, hh⟩ := hblock.iterate_run
  refine ⟨_, ?_, hphase, hdg, ?_, hflags, hmlen, fun o => congrArg (Memory.get? · o) hmem⟩
  · rw [Nat.add_comm]
    exact (run_succ_of_step (M := core) _ (step_cmdStart hi hb (hlen ▸ hcap))).trans
      (run_of_no_inputs _ _ rfl)
  · rw [hh, hnblk, hblock.message.blocks]

end Sys2Proof.Machine

/-! ## What a turn of the core and a host transaction can do -/

namespace Sys2Proof.Machine

theorem step_of_coreNext {s : State} (h : s.coreNext = true) :
    step s = .next (coreStep (s.setInputs s.inputs.tail)) := by
  match hi : s.inputs with
  | [] => rw [step_nil s hi, List.tail_nil, ← hi, State.setInputs_self]
  | .core :: is => exact step_core s is hi
  | .bus _ :: _ | .reset :: _ => simp [State.coreNext, hi, Input.isCore] at h

theorem coreStep_of_some {s : State} {i : Instr} (h : decodeUop s.phase.code = some i) :
    coreStep s = after i s := by
  rw [coreStep, h]

theorem coreStep_of_none {s : State} (h : decodeUop s.phase.code = none) : coreStep s = s := by
  rw [coreStep, h]

/-- R20, R254: a core that is not busy has no step. -/
theorem coreStep_of_not_busy {s : State} (h : s.busy = false) : coreStep s = s := by
  rcases s.busy_eq_false_iff.1 h with hp | hp
  · exact coreStep_idle s hp
  · exact coreStep_done s hp

/-- Every way in which a transaction can end (R120-R128, R139-R141): a read answers, a write is ignored, is
refused with a flag, or does what its row says. -/
inductive HostEffect (t : BusTx) (s : State) : State → Prop
  | answered (d : Word) (n : Nat) (ht : t.write = false) : HostEffect t s ((s.setRdata d).draw n)
  | ignored : HostEffect t s s
  | flagged (f : ErrFlag) : HostEffect t s (s.setFlag f)
  | msgLenWritten (hb : s.busy = false) : HostEffect t s (s.setMsgLen t.wdata)
  | messageWritten (o : Nat) (hb : s.busy = false) :
      HostEffect t s (s.setMem (storeLanes s.cfg.cap o t.wdata t.wstrb s.mem))
  | lengthRefused (hb : s.busy = false) : HostEffect t s ((s.setFlag .len).goTo .idle 0)
  | started (ht : t.write = true) (ha : 0x004 ≤ t.addr.toNat ∧ t.addr.toNat < 0x008)
      (hd : t.wdata = 0x00000001) (hb : s.busy = false) (hl : s.msgLen.toNat ≤ s.cfg.cap) :
      HostEffect t s s.started
  | cleared (hb : s.busy = false) : HostEffect t s ((s.clearFlags.setBlocks 0 0).goTo .idle 0)

/-- A command write ends in one of these ways (R122-R125, R141). -/
theorem hostEffect_command {t : BusTx} (s : State) (ht : t.write = true)
    (ha : 0x004 ≤ t.addr.toNat ∧ t.addr.toNat < 0x008) :
    HostEffect t s (after (decodeCmd t.wdata) s) := by
  rw [after_command]
  split_ifs with hnop hstart hbusy hlen hclear hbusy
  · exact .ignored
  · exact .flagged .busy
  · exact .lengthRefused (Bool.eq_false_iff.2 hbusy)
  · exact .started ht ha hstart (Bool.eq_false_iff.2 hbusy) (Nat.le_of_not_lt hlen)
  · exact .flagged .busy
  · exact .cleared (Bool.eq_false_iff.2 hbusy)
  · exact .flagged .cmd

/-- Every transaction ends in one of these ways. -/
theorem hostEffect_bus (c : Config) (t : BusTx) (s : State) :
    HostEffect t s (after (decodeBus c t) s) := by
  cases ht : t.write with
  | false =>
    obtain ⟨d, n, h⟩ := after_read c t s ht
    exact h ▸ .answered d n ht
  | true =>
    rw [after_write c t s ht]
    split_ifs with hcmd hlen hbusy hwin hbusy
    · exact hostEffect_command s ht hcmd
    · exact .flagged .busy
    · exact .msgLenWritten (Bool.eq_false_iff.2 hbusy)
    · exact .flagged .busy
    · exact .messageWritten _ (Bool.eq_false_iff.2 hbusy)
    · exact .ignored

end Sys2Proof.Machine

/-! ## The invariant is kept -/

namespace Sys2Proof.Machine

/-- `NBLK` as START computes it, with no wrap: a word of length has fewer than 2^32 blocks. -/
theorem toNat_ofNat_blockCount (n : Word) :
    (BitVec.ofNat 32 (blockCount n.toNat)).toNat = blockCount n.toNat := by
  have := n.isLt
  rw [BitVec.toNat_ofNat, Nat.mod_eq_of_lt]
  unfold blockCount
  omega

/-- A turn that is not the last of its phase counts `STEP` up, with no wrap. -/
theorem State.toNat_stepIdx_add_one (s : State) (hle : s.stepIdx.toNat ≤ 63) (hne : s.stepIdx ≠ 63) :
    (s.stepIdx + 1).toNat = s.stepIdx.toNat + 1 ∧ s.stepIdx.toNat < 63 := by
  rw [Ne, s.stepIdx_eq_63_iff] at hne
  bv_omega

namespace State.Inv

variable {s : State} (h : s.Inv)
include h

/-! ### Updates of what the invariant does not speak of -/

theorem setInputs (is : List Input) : (s.setInputs is).Inv :=
  ⟨h.cfg_wf, h.mem_wf, h.mem_within, h.step_in_range, h.blocks_in_range, h.run_fixed, h.digest_held⟩

theorem setRdata_draw (d : Word) (n : Nat) : ((s.setRdata d).draw n).Inv :=
  ⟨h.cfg_wf, h.mem_wf, h.mem_within, h.step_in_range, h.blocks_in_range, h.run_fixed, h.digest_held⟩

theorem setFlag (f : ErrFlag) : (s.setFlag f).Inv := by
  obtain ⟨hcfg, hmem, hwithin, hstep, hblocks, hrun, hdg⟩ := h
  cases f <;> exact ⟨hcfg, hmem, hwithin, hstep, hblocks, hrun, hdg⟩

/-! ### The effects of a host transaction -/

/-- R278: `KBLK` is never above `NBLK`. -/
theorem kblk_le_nblk : s.kblk ≤ s.nblk := by
  have hblocks := h.blocks_in_range
  unfold State.blocksInRange at hblocks
  cases hp : s.phase <;> simp only [hp] at hblocks <;> bv_omega

theorem setMsgLen (hb : s.busy = false) (d : Word) : (s.setMsgLen d).Inv :=
  ⟨h.cfg_wf, h.mem_wf, h.mem_within, h.step_in_range, h.blocks_in_range,
    fun hbusy => absurd (hb.symm.trans hbusy) Bool.false_ne_true, h.digest_held⟩

theorem setMem {m : Memory} (hwf : m.wf = true) (hwithin : m.within s.cfg.cap = true) :
    (s.setMem m).Inv :=
  ⟨h.cfg_wf, hwf, hwithin, h.step_in_range, h.blocks_in_range, h.run_fixed, h.digest_held⟩

/-- IDLE with `STEP` 0 asks of the counters only that `KBLK` is not above `NBLK`. -/
theorem goTo_idle : (s.goTo .idle 0).Inv :=
  ⟨h.cfg_wf, h.mem_wf, h.mem_within, rfl, h.kblk_le_nblk, nofun, nofun⟩

theorem started (hl : s.msgLen.toNat ≤ s.cfg.cap) : s.started.Inv := by
  have hn : s.started.nblk.toNat = blockCount s.msgLen.toNat := toNat_ofNat_blockCount s.msgLen
  have hpos : s.started.kblk < s.started.nblk := by
    rw [BitVec.lt_def, hn]
    exact Nat.succ_pos _
  exact ⟨h.cfg_wf, h.mem_wf, h.mem_within, rfl, hpos, fun _ => ⟨hl, hn⟩, nofun⟩

theorem cleared : ((s.clearFlags.setBlocks 0 0).goTo .idle 0).Inv :=
  ⟨h.cfg_wf, h.mem_wf, h.mem_within, rfl, BitVec.le_refl 0, nofun, nofun⟩

theorem hostEffect {t : BusTx} {u : State} (he : HostEffect t s u) : u.Inv := by
  cases he with
  | answered d n => exact h.setRdata_draw d n
  | ignored => exact h
  | flagged f => exact h.setFlag f
  | msgLenWritten hb => exact h.setMsgLen hb _
  | messageWritten =>
    exact h.setMem (storeLanes_wf _ _ _ _ _ h.mem_wf) (storeLanes_within _ _ _ _ _ h.mem_within)
  | lengthRefused => exact (h.setFlag .len).goTo_idle
  | started _ _ _ _ hl => exact h.started hl
  | cleared => exact h.cleared

/-! ### The turns of the core -/

/-- R26: 16..63 in SCHED, 0..63 in ROUND, and 0 in every phase that a turn enters but SCHED. -/
theorem coreStep_stepInRange : (coreStep s).stepInRange := by
  have hstep := h.step_in_range
  cases hp : s.phase with
  | idle => rwa [coreStep_idle s hp]
  | done => rwa [coreStep_done s hp]
  | load => rw [coreStep_load hp, after_uopLoad]; simp [State.stepInRange]
  | cinit => rw [coreStep_cinit hp]; exact Nat.zero_le 63
  | final => rw [coreStep_final hp]; rfl
  | feed =>
    rw [coreStep_feed hp, after_uopFeed]
    split <;> rfl
  | sched =>
    simp only [State.stepInRange, hp] at hstep
    rw [coreStep_sched hp, after_uopSched]
    split
    next => rfl
    next hne =>
      obtain ⟨hsucc, hlt⟩ := s.toNat_stepIdx_add_one hstep.2 hne
      simp only [State.stepInRange, State.goTo_phase, State.goTo_stepIdx, hp, hsucc]
      omega
  | round =>
    simp only [State.stepInRange, hp] at hstep
    rw [coreStep_round hp, after_uopRound]
    split
    next => rfl
    next hne =>
      obtain ⟨hsucc, hlt⟩ := s.toNat_stepIdx_add_one hstep hne
      simp only [State.stepInRange, State.goTo_phase, State.goTo_stepIdx, hp, hsucc]
      omega

/-- R27, R199: only FEED moves `KBLK`, and it goes to LOAD exactly when a block remains. -/
theorem coreStep_blocksInRange : (coreStep s).blocksInRange := by
  have hblocks := h.blocks_in_range
  cases hp : s.phase with
  | idle => rwa [coreStep_idle s hp]
  | done => rwa [coreStep_done s hp]
  | load | cinit | final =>
    simp only [State.blocksInRange, hp] at hblocks
    simpa [coreStep_eq, hp, after_uopLoad, after_uopCinit, after_uopFinal, State.blocksInRange]
      using hblocks
  | sched | round =>
    simp only [State.blocksInRange, hp] at hblocks
    simp only [coreStep_eq, hp, after_uopSched, after_uopRound]
    split <;> simpa [State.blocksInRange] using hblocks
  | feed =>
    simp only [State.blocksInRange, hp] at hblocks
    rw [coreStep_feed hp, after_uopFeed]
    split
    next hmore => exact hmore
    next hlast =>
      have hall : s.kblk + 1 = s.nblk := by bv_omega
      exact hall

/-- A run goes on with the length and the block count that START fixed (R74). -/
theorem coreStep_runFixed : (coreStep s).runFixed := by
  obtain ⟨hcfg, -, -, -, hlen, hnblk, -⟩ := coreStep_frame s
  intro hbusy
  cases hb : s.busy with
  | true => rw [hcfg, hlen, hnblk]; exact h.run_fixed hb
  | false => rw [coreStep_of_not_busy hb, hb] at hbusy; nomatch hbusy

/-- R222: only FINAL leads into DONE, and it serializes `H`. -/
theorem coreStep_digestHeld : (coreStep s).digestHeld := by
  cases hp : s.phase with
  | idle => rw [coreStep_idle s hp]; exact h.digest_held
  | done => rw [coreStep_done s hp]; exact h.digest_held
  | final => simp [coreStep_eq, hp, after_uopFinal, State.digestHeld]
  | load | cinit => simp [coreStep_eq, hp, after_uopLoad, after_uopCinit, State.digestHeld]
  | feed =>
    rw [coreStep_feed hp, after_uopFeed]
    split <;> simp [State.digestHeld]
  | sched | round =>
    simp only [coreStep_eq, hp, after_uopSched, after_uopRound]
    split <;> simp [State.digestHeld]

theorem coreStep : (coreStep s).Inv := by
  obtain ⟨hcfg, -, -, hmem, -⟩ := coreStep_frame s
  refine ⟨hcfg ▸ h.cfg_wf, hmem ▸ h.mem_wf, ?_, h.coreStep_stepInRange, h.coreStep_blocksInRange,
    h.coreStep_runFixed, h.coreStep_digestHeld⟩
  rw [hcfg, hmem]
  exact h.mem_within

end State.Inv

/-- R270: a reset asks of the state before it only what it keeps, the parameter and `MEM`. -/
theorem State.inv_onReset {s : State} (hcfg : s.cfg.wf = true) (hmem : s.mem.wf = true)
    (hwithin : s.mem.within s.cfg.cap = true) : s.onReset.Inv :=
  ⟨hcfg, hmem, hwithin, rfl, BitVec.le_refl 0, nofun, nofun⟩

end Sys2Proof.Machine

/-! ## The registers that a step writes -/

namespace Sys2Proof.Machine

/-- R22, R23, R24, R28: a turn of the core writes the register files of its phase's micro-op. -/
theorem coreStep_writes (s : State) :
    ((coreStep s).h ≠ s.h → s.phase = .feed)
      ∧ ((coreStep s).a ≠ s.a → s.phase = .cinit ∨ s.phase = .round)
      ∧ ((coreStep s).w ≠ s.w → s.phase = .load ∨ s.phase = .sched)
      ∧ ((coreStep s).dg ≠ s.dg → s.phase = .final) := by
  rw [coreStep_eq]
  cases s.phase with
  | idle | done => simp
  | load | cinit | feed | final =>
    simp [after_uopLoad, after_uopCinit, after_uopFeed, after_uopFinal]
  | sched | round =>
    simp only [after_uopSched, after_uopRound]
    split <;> simp

/-- A transaction writes no register file but `H`, and that only as an accepted START (R123). -/
theorem HostEffect.writes {t : BusTx} {s u : State} (he : HostEffect t s u) :
    (u.h ≠ s.h → t.write = true ∧ (0x004 ≤ t.addr.toNat ∧ t.addr.toNat < 0x008)
        ∧ t.wdata = 0x00000001 ∧ s.busy = false ∧ s.msgLen.toNat ≤ s.cfg.cap)
      ∧ u.a = s.a ∧ u.w = s.w ∧ u.dg = s.dg := by
  cases he with
  | started ht ha hd hb hl => exact ⟨fun _ => ⟨ht, ha, hd, hb, hl⟩, rfl, rfl, rfl⟩
  | answered | ignored | flagged | msgLenWritten | messageWritten | lengthRefused | cleared => simp

/-- A write transaction puts nothing on the port (log 3). -/
theorem HostEffect.rdata_eq {t : BusTx} {s u : State} (he : HostEffect t s u) (ht : t.write = true) :
    u.rdata = s.rdata := by
  cases he with
  | answered _ _ hread => rw [ht] at hread; nomatch hread
  | ignored | msgLenWritten | messageWritten | started | cleared => rfl
  | flagged | lengthRefused => simp

theorem State.commandNext_of_write {s : State} {t : BusTx} {is : List Input}
    (hi : s.inputs = .bus t :: is) (ht : t.write = true)
    (ha : 0x004 ≤ t.addr.toNat ∧ t.addr.toNat < 0x008) : s.commandNext t.wdata :=
  ⟨t.addr.toNat, by simp [State.nextWrite, hi, ht], ha⟩

/-! ## The digest words -/

/-- R220: the bytes of the hash state, most significant first in each word. -/
theorem serialize_getElem (h : Vector Word 8) {i : Nat} (hi : i < 32) :
    (serialize h)[i] = beByte h[i / 4] (i % 4) := Vector.getElem_ofFn hi

/-- R40, R220: the four bytes of a word, put together again. -/
theorem be32_beByte (x : Word) : be32 (beByte x 0) (beByte x 1) (beByte x 2) (beByte x 3) = x := by
  have := x.isLt
  apply BitVec.eq_of_toNat_eq
  simp only [be32_toNat, beByte_toNat]
  omega

/-- R40: the word window reads back what FINAL serialized. -/
theorem digestWord_serialize (h : Vector Word 8) (j : Fin 8) : digestWord (serialize h) j = h[j] := by
  simp only [digestWord, serialize_getElem, Nat.mul_add_div, Nat.mul_add_mod, Nat.mul_div_cancel_left,
    Nat.mul_mod_right, Nat.reduceDiv, Nat.reduceMod, Nat.add_zero, Nat.zero_lt_succ]
  exact be32_beByte h[j]

/-! ## Reset -/

/-- The reset values of R44. -/
theorem State.onReset_values (s : State) :
    (∀ j : Fin 8, s.onReset.h[j] = 0 ∧ s.onReset.a[j] = 0) ∧ (∀ t : Fin 64, s.onReset.w[t] = 0)
      ∧ (∀ b : Fin 32, s.onReset.dg[b] = 0) ∧ s.onReset.status = 0 := by
  simp [State.status, State.doneOut, State.busy, Phase.busy, Phase.code]

/-- The state after power-on and reset is one that a reset event leaves. -/
theorem State.onReset_reset : State.reset.onReset = State.reset := rfl

end Sys2Proof.Machine

/-! ## The statements about the state, its invariant and its writers -/

namespace Sys2Proof.Machine

/-- Settles O43: a turn of the core, each way a transaction can end, and a reset keep the invariant. -/
theorem stepKeepsInvariant : Obligations.StepKeepsInvariant := by
  intro s u h hu
  rcases step_cases s u hu with ⟨-, rfl⟩ | ⟨t, is, -, rfl⟩ | ⟨is, -, rfl⟩
  · exact (h.setInputs _).coreStep
  · exact (h.setInputs is).hostEffect (hostEffect_bus s.cfg t _)
  · exact State.inv_onReset h.cfg_wf h.mem_wf h.mem_within

/-- Settles O41: in DONE, `DG` is the serialized hash state, and the window reads its words back. -/
theorem digestWordIsHashWord : Obligations.DigestWordIsHashWord := by
  intro s j h hdone
  refine ⟨_, rfl, ?_, ⟨rfl, rfl, rfl, rfl⟩, ⟨rfl, rfl, rfl, rfl⟩, ⟨rfl, rfl, rfl⟩,
    ⟨rfl, fun _ => rfl⟩, rfl, rfl⟩
  rw [State.setRdata_rdata, State.gated, if_pos hdone, h.digest_held hdone, digestWord_serialize]

/-- Settles O46: only a transaction that reads answers on the port. -/
theorem onlyReadsSetReadData : Obligations.OnlyReadsSetReadData := by
  intro s u hu hwrite
  rcases step_cases s u hu with ⟨-, rfl⟩ | ⟨t, is, hi, rfl⟩ | ⟨is, -, rfl⟩
  · obtain ⟨-, -, hrdata, -⟩ := coreStep_frame (s.setInputs s.inputs.tail)
    exact hrdata
  · exact (hostEffect_bus s.cfg t (s.setInputs is)).rdata_eq (hwrite t is hi)
  · rfl

/-- Settles O49: a turn of the core writes what its micro-op writes; of the transactions only an accepted
START writes a register file. -/
theorem whoWritesTheRegisterFiles : Obligations.WhoWritesTheRegisterFiles := by
  intro s u hu hreset
  rcases step_cases s u hu with ⟨hcore, rfl⟩ | ⟨t, is, hi, rfl⟩ | ⟨is, hi, -⟩
  · obtain ⟨hh, ha, hw, hdg⟩ := coreStep_writes (s.setInputs s.inputs.tail)
    exact ⟨fun h => .inl ⟨hcore, hh h⟩, fun h => ⟨hcore, ha h⟩, fun h => ⟨hcore, hw h⟩,
      fun h => ⟨hcore, hdg h⟩⟩
  · obtain ⟨hh, ha, hw, hdg⟩ := (hostEffect_bus s.cfg t (s.setInputs is)).writes
    refine ⟨fun h => ?_, fun h => absurd ha h, fun h => absurd hw h, fun h => absurd hdg h⟩
    obtain ⟨ht, haddr, hd, hb, hl⟩ := hh h
    exact .inr ⟨hb, hd ▸ State.commandNext_of_write hi ht haddr, hl⟩
  · simp [State.resetNext, hi, Input.isReset] at hreset

/-- Settles O7: each event's step, with the micro-op that `PHASE` selects. -/
theorem stepRunsDecodedInstruction : Obligations.StepRunsDecodedInstruction := by
  intro s t is i
  refine ⟨fun hi => ?_, fun hi hsome => ?_, fun hi hsome => ?_, fun hi hnone => ?_,
    fun hi hnone => ?_, step_reset s is⟩
  · rw [step_bus s t is hi, exec_eq_next]
  · rw [step_core s is hi, coreStep_of_some (s := s.setInputs is) hsome, exec_eq_next]
  · rw [step_nil s hi, coreStep_of_some hsome, exec_eq_next]
  · rw [step_core s is hi, coreStep_of_none (s := s.setInputs is) hnone]
  · rw [step_nil s hi, coreStep_of_none hnone]

/-- Settles O11: IDLE and DONE are the phases that are not busy, and there the core has no step. -/
theorem coreRestsInIdleAndDone : Obligations.CoreRestsInIdleAndDone := by
  intro s hp hcore
  have hb : (s.setInputs s.inputs.tail).busy = false := s.busy_eq_false_iff.2 hp
  exact ⟨_, step_of_coreNext hcore, coreStep_of_not_busy hb⟩

/-- Settles O42: it is the state that a reset of itself gives. -/
theorem resetMeetsInvariant : Obligations.ResetMeetsInvariant := by
  rw [Obligations.ResetMeetsInvariant, ← State.onReset_reset]
  exact State.inv_onReset (by decide) rfl rfl

/-- Settles O44: both states are ones that a reset leaves. -/
theorem resetValues : Obligations.ResetValues := by
  intro s is hi
  refine ⟨_, step_reset s is hi, fun _ => rfl, ?_⟩
  intro v hv
  obtain ⟨r, rfl⟩ : ∃ r, v = State.onReset r :=
    hv.elim (fun h => ⟨_, h⟩) fun h => ⟨_, h.trans State.onReset_reset.symm⟩
  obtain ⟨hha, hw, hdg, hstatus⟩ := r.onReset_values
  exact ⟨hha, hw, hdg, rfl, rfl, rfl, rfl, rfl, rfl, rfl, rfl, hstatus, rfl⟩

end Sys2Proof.Machine

/-! ## The address map, for reads and writes at once -/

namespace Sys2Proof

/-- The write row at the address of a read row. -/
def Instr.asWrite (d : Word) (s : Strobe) : Instr → Instr
  | .rdId => .wrId d s
  | .rdCmd => .wrCmd d s
  | .rdStatus => .wrStatus d s
  | .rdMsgLen => .wrMsgLen d s
  | .rdBlocks => .wrBlocks d s
  | .rdNblocks => .wrNblocks d s
  | .rdMsgCap => .wrMsgCap d s
  | .rdDigest j => .wrDigest j d s
  | .rdHex q => .wrHex q d s
  | .rdDigestb q => .wrDigestb q d s
  | .rdMsg o => .wrMsg o d s
  | .rdRsv a => .wrRsv a d s
  | i => i

/-- R120 and R121 list the same addresses. -/
theorem decodeWrite_eq_asWrite (c : Config) (a d : Word) (s : Strobe) :
    decodeWrite c a d s = (decodeRead c a).asWrite d s := by
  simp only [decodeRead, decodeWrite, apply_ite (Instr.asWrite d s)]
  rfl

/-- A well-formed read of the address `a`. -/
structure Instr.ReadsAt (c : Config) (a : Word) (i : Instr) : Prop where
  wf : i.wellFormed c = true
  encodes : encode i = .bus (readTx a)

/-- A write row has the operands and the address of its read row. -/
theorem Instr.ReadsAt.asWrite {c : Config} {a : Word} {i : Instr} (h : i.ReadsAt c a) (d : Word)
    (s : Strobe) :
    (i.asWrite d s).wellFormed c = true ∧ encode (i.asWrite d s) = .bus (writeTx a d s) := by
  obtain ⟨hwf, h⟩ := h
  have haddr {b : Word} (hb : Key.bus (readTx b) = .bus (readTx a)) : b = a :=
    congrArg BusTx.addr (Key.bus.inj hb)
  cases i with
  | rdId | rdCmd | rdStatus | rdMsgLen | rdBlocks | rdNblocks | rdMsgCap | rdDigest | rdHex
  | rdDigestb | rdMsg | rdRsv =>
    exact ⟨hwf, haddr h ▸ rfl⟩
  | _ => simp [encode, readTx, writeTx] at h

theorem readsAt_ite {c : Config} {a : Word} {p : Prop} [Decidable p] {i j : Instr}
    (hi : p → i.ReadsAt c a) (hj : ¬ p → j.ReadsAt c a) : (if p then i else j).ReadsAt c a :=
  iteInduction hi hj

section
variable (c : Config) (a : Word)

/-- R32, R64: the register at the aligned address `n` of the map. -/
theorem readsAt_register {i : Instr} (n : Nat) (h : n ≤ a.toNat ∧ a.toNat < n + 4)
    (hwf : i.wellFormed c = true) (hi : encode i = .bus (readTx (BitVec.ofNat 32 n)))
    (hn : 4 ∣ n ∧ n < 2 ^ 32 := by decide) : i.ReadsAt c (alignAddr a) := by
  obtain ⟨⟨k, rfl⟩, hlt⟩ := hn
  exact ⟨hwf, by rw [hi, (alignAddr_eq_iff a k hlt).2 h]⟩

/-- R32: the word of the window at `base` that the decoder reads from an address in it. -/
theorem readsAt_window {i : Instr} {n base : Nat} [NeZero n]
    (h : base ≤ a.toNat ∧ a.toNat < base + 4 * n) (hwf : i.wellFormed c = true)
    (hi : encode i = .bus (readTx (windowAddr base (Fin.ofNat n ((a.toNat - base) / 4)))))
    (hbase : base % 4 = 0 := by decide) : i.ReadsAt c (alignAddr a) := by
  have haddr : windowAddr base (Fin.ofNat n ((a.toNat - base) / 4)) = alignAddr a := by
    apply BitVec.eq_of_toNat_eq
    rw [windowAddr, Fin.val_ofNat, Nat.mod_eq_of_lt (by omega), BitVec.toNat_ofNat, alignAddr_toNat]
    omega
  exact ⟨hwf, by rw [hi, haddr]⟩

/-- R62, R63: the offset of an address in the message window. -/
theorem readsAt_rdMsg (h : c.inWindow (alignAddr a) = true) :
    (Instr.rdMsg (alignAddr a - 0x1000)).ReadsAt c (alignAddr a) := by
  have ha := alignAddr_toNat a
  rw [Config.inWindow_iff] at h
  have hsub : (alignAddr a - 0x1000).toNat = (alignAddr a).toNat - 0x1000 := by bv_omega
  refine ⟨?_, by rw [encode, BitVec.add_comm, BitVec.sub_add_cancel]⟩
  simp only [Instr.wellFormed, Config.msgOffset, hsub, Bool.and_eq_true, decide_eq_true_eq]
  omega

/-- R70: an address outside the registers and the windows. -/
theorem readsAt_rdRsv (hreg : ¬ a.toNat < 0x01C) (hout : ¬ (0x020 ≤ a.toNat ∧ a.toNat < 0x0A0))
    (h : ¬ c.inWindow (alignAddr a) = true) : (Instr.rdRsv (alignAddr a)).ReadsAt c (alignAddr a) := by
  have ha := alignAddr_toNat a
  rw [Config.inWindow_iff] at h
  refine ⟨?_, rfl⟩
  simp only [Instr.wellFormed, Config.reserved, Bool.and_eq_true, Bool.not_eq_true',
    Bool.or_eq_false_iff, Bool.and_eq_false_iff, decide_eq_true_eq, decide_eq_false_iff_not]
  omega

/-- R70, R121: every address is a well-formed read of its aligned word. -/
theorem decodeRead_readsAt : (decodeRead c (alignAddr a)).ReadsAt c (alignAddr a) := by
  rw [decodeRead_alignAddr]
  refine readsAt_ite (fun _ => readsAt_register c a 0x000 (by omega) rfl rfl) fun h0 => ?_
  refine readsAt_ite (fun _ => readsAt_register c a 0x004 (by omega) rfl rfl) fun h1 => ?_
  refine readsAt_ite (fun _ => readsAt_register c a 0x008 (by omega) rfl rfl) fun h2 => ?_
  refine readsAt_ite (fun _ => readsAt_register c a 0x00C (by omega) rfl rfl) fun h3 => ?_
  refine readsAt_ite (fun _ => readsAt_register c a 0x010 (by omega) rfl rfl) fun h4 => ?_
  refine readsAt_ite (fun _ => readsAt_register c a 0x014 (by omega) rfl rfl) fun h5 => ?_
  refine readsAt_ite (fun _ => readsAt_register c a 0x018 (by omega) rfl rfl) fun h6 => ?_
  refine readsAt_ite (fun h => readsAt_window c a h rfl rfl) fun h7 => ?_
  refine readsAt_ite (fun h => readsAt_window c a h rfl rfl) fun h8 => ?_
  refine readsAt_ite (fun h => readsAt_window c a h rfl rfl) fun h9 => ?_
  exact readsAt_ite (readsAt_rdMsg c a) (readsAt_rdRsv c a h6 (by omega))

end

/-- R64: the decoder sees an address through its aligned word only. -/
theorem decodeBus_align (c : Config) (t : BusTx) :
    decodeBus c { t with addr := (t.addr >>> 2) <<< 2 } = decodeBus c t := by
  simp only [decodeBus, ← alignAddr_eq_shift, alignAddr_alignAddr]

end Sys2Proof

/-! ## What the host can do while the machine is busy -/

namespace Sys2Proof.Machine

/-- What a run works on: the state with the flags, the port, the events and the counter of draws
blanked. -/
def State.bare (s : State) : State :=
  { s with errCmd := false, errBusy := false, errLen := false, rdata := 0, inputs := [], draws := 0 }

@[simp] theorem State.bare_a (s : State) : s.bare.a = s.a := rfl
@[simp] theorem State.bare_w (s : State) : s.bare.w = s.w := rfl
@[simp] theorem State.bare_phase (s : State) : s.bare.phase = s.phase := rfl
@[simp] theorem State.bare_stepIdx (s : State) : s.bare.stepIdx = s.stepIdx := rfl
@[simp] theorem State.bare_kblk (s : State) : s.bare.kblk = s.kblk := rfl
@[simp] theorem State.bare_busy (s : State) : s.bare.busy = s.busy := rfl

theorem busy_of_bare_eq {s u : State} (h : u.bare = s.bare) : u.busy = s.busy := by
  rw [← State.bare_busy, h, State.bare_busy]

/-- States with one bare state agree in the sequencer, the register files, the message and the
parameter. -/
theorem same_of_bare_eq {s u : State} (h : u.bare = s.bare) :
    SameSequencer s u ∧ SameHash s u ∧ SameMessage s u ∧ u.cfg = s.cfg := by
  change SameSequencer s u.bare ∧ SameHash s u.bare ∧ SameMessage s u.bare ∧ u.bare.cfg = s.cfg
  rw [h]
  exact ⟨⟨rfl, rfl, rfl, rfl⟩, ⟨rfl, rfl, rfl, rfl⟩, ⟨rfl, fun _ => rfl⟩, rfl⟩

/-- R74, R276: `u` is `s` but for the port, the draws, and `ERR_CMD` and `ERR_BUSY` newly set. -/
structure Undisturbed (s u : State) : Prop where
  bare : u.bare = s.bare
  inputs : u.inputs = s.inputs
  errLen : u.errLen = s.errLen
  errCmd : s.errCmd = true → u.errCmd = true
  errBusy : s.errBusy = true → u.errBusy = true

theorem Undisturbed.refl (s : State) : Undisturbed s s := ⟨rfl, rfl, rfl, id, id⟩

theorem Undisturbed.setFlag {f : ErrFlag} (s : State) (hf : f ≠ .len) :
    Undisturbed s (s.setFlag f) := by
  cases f with
  | len => exact absurd rfl hf
  | cmd | busy => exact ⟨rfl, rfl, rfl, fun h => by simp [h], fun h => by simp [h]⟩

/-- R122-R125, R276: a command while busy. -/
theorem undisturbed_command {s : State} (hb : s.busy = true) (d : Word) :
    Undisturbed s (after (decodeCmd d) s) := by
  rw [after_command]
  split_ifs
  · exact .refl s
  · exact .setFlag s nofun
  · exact .setFlag s nofun
  · exact .setFlag s nofun

/-- R74: a transaction while busy. -/
theorem undisturbed_bus {s : State} (hb : s.busy = true) (c : Config) (t : BusTx) :
    Undisturbed s (after (decodeBus c t) s) := by
  cases ht : t.write with
  | false =>
    obtain ⟨d, n, h⟩ := after_read c t s ht
    exact h ▸ ⟨rfl, rfl, rfl, id, id⟩
  | true =>
    rw [after_write c t s ht]
    split_ifs
    · exact undisturbed_command hb t.wdata
    · exact .setFlag s nofun
    · exact .setFlag s nofun
    · exact .refl s

/-! ## What a turn of the core reads -/

/-- R79: every byte of the message was written since power-on. -/
def State.Written (s : State) : Prop := ∀ o, o < s.msgLen.toNat → (s.mem.get? o).isSome = true

theorem Memory.read_eq_read {m : Memory} {o : Nat} (h : (m.get? o).isSome = true) (j k : Nat) :
    m.read o j = m.read o k := by
  obtain ⟨b, hb⟩ := Option.isSome_iff_exists.1 h
  rw [Memory.read_of_get? j hb, Memory.read_of_get? k hb]

theorem State.bare_inv (s : State) : s.bare.Inv ↔ s.Inv :=
  ⟨fun ⟨hcfg, hmem, hwithin, hstep, hblocks, hrun, hdg⟩ =>
      ⟨hcfg, hmem, hwithin, hstep, hblocks, hrun, hdg⟩,
    fun ⟨hcfg, hmem, hwithin, hstep, hblocks, hrun, hdg⟩ =>
      ⟨hcfg, hmem, hwithin, hstep, hblocks, hrun, hdg⟩⟩

theorem State.bare_written (s : State) : s.bare.Written ↔ s.Written := Iff.rfl

/-- R152: a byte of the padded message needs no draw. -/
theorem State.padByteAt_bare {s : State} (hw : s.Written) {i : Nat} (hi : i < 64 * s.nblk.toNat) :
    s.bare.padByteAt i = s.padByteAt i :=
  padByte_congr _ _ hi fun h => Memory.read_eq_read (hw i h) _ _

theorem State.blockWord_bare {s : State} (hw : s.Written) (hk : s.kblk < s.nblk) {i : Nat}
    (hi : i < 16) : s.bare.blockWord i = s.blockWord i := by
  rw [BitVec.lt_def] at hk
  simp only [State.blockWord, State.bare_kblk]
  iterate 4 rw [s.padByteAt_bare hw (by omega)]

/-- R280: with a written message a turn of the core reads no flag, no event, no draw. -/
theorem coreStep_bare {s : State} (hinv : s.Inv) (hw : s.Written) :
    (coreStep s.bare).bare = (coreStep s).bare := by
  have hstep := hinv.step_in_range
  have hblocks := hinv.blocks_in_range
  cases hp : s.phase with
  | idle => rw [coreStep_idle s hp, coreStep_idle s.bare hp]; rfl
  | done => rw [coreStep_done s hp, coreStep_done s.bare hp]; rfl
  | cinit => rw [coreStep_cinit hp, coreStep_cinit (s := s.bare) hp]; rfl
  | feed => rw [coreStep_feed hp, coreStep_feed (s := s.bare) hp]; rfl
  | final => rw [coreStep_final hp, coreStep_final (s := s.bare) hp]; rfl
  | load =>
    simp only [State.blocksInRange, hp] at hblocks
    have hword (i : Fin 64) : (if i.val < 16 then s.bare.blockWord i.val else s.bare.w[i])
        = if i.val < 16 then s.blockWord i.val else s.w[i] :=
      ite_congr rfl (fun hi => s.blockWord_bare hw hblocks hi) fun _ => rfl
    rw [coreStep_load hp, coreStep_load (s := s.bare) hp, after_uopLoad, after_uopLoad, funext hword]
    rfl
  | sched =>
    simp only [State.stepInRange, hp] at hstep
    have hrange : 16 ≤ s.stepIdx.toNat ∧ s.stepIdx.toNat < 64 := by omega
    have hword : s.bare.nextScheduleWord = s.nextScheduleWord := by
      simp [State.nextScheduleWord, hrange]
    simp only [coreStep_sched hp, coreStep_sched (s := s.bare) hp, after_uopSched, hword,
      State.bare_stepIdx, State.bare_w, State.bare_phase]
    split_ifs <;> rfl
  | round =>
    simp only [State.stepInRange, hp] at hstep
    have hrange : s.stepIdx.toNat < 64 := by omega
    have hconst : s.bare.roundConst = s.roundConst := by simp [State.roundConst, hrange]
    have hword : s.bare.roundWord = s.roundWord := by simp [State.roundWord, hrange]
    simp only [coreStep_round hp, coreStep_round (s := s.bare) hp, after_uopRound, hconst, hword,
      State.bare_stepIdx, State.bare_a, State.bare_phase]
    split_ifs <;> rfl

/-- From equal bare states a turn leads to equal bare states. -/
theorem coreStep_bare_congr {s t : State} (hinv : s.Inv) (hw : s.Written) (h : t.bare = s.bare) :
    (coreStep t).bare = (coreStep s).bare := by
  have hinv' : t.Inv := t.bare_inv.1 (h ▸ s.bare_inv.2 hinv)
  have hw' : t.Written := t.bare_written.1 (h ▸ s.bare_written.2 hw)
  rw [← coreStep_bare hinv hw, ← coreStep_bare hinv' hw', h]

theorem busy_of_busy_iterate {s : State} {n : Nat} (h : (coreStep^[n] s).busy = true) :
    s.busy = true := by
  by_contra hb
  have hfix : coreStep s = s := coreStep_of_not_busy (Bool.eq_false_iff.2 hb)
  rw [Function.iterate_fixed hfix] at h
  exact hb h

/-! ## Runs over a schedule -/

/-- R74: the transactions of a busy machine, one after the other. -/
theorem run_transactions (is : List Input) (s : State) (hi : s.inputs = is) (hb : s.busy = true)
    (hbus : is.all Input.isBus = true) :
    ∃ u, core.run is.length s = .next u ∧ Undisturbed (s.setInputs []) u := by
  induction is generalizing s with
  | nil => exact ⟨s, rfl, rfl, hi, rfl, id, id⟩
  | cons i is ih =>
    rw [List.all_cons, Bool.and_eq_true] at hbus
    obtain ⟨hhead, htail⟩ := hbus
    cases i with
    | core | reset => nomatch hhead
    | bus t =>
      have h := undisturbed_bus (s := s.setInputs is) hb s.cfg t
      obtain ⟨u, hrun, hu⟩ := ih _ h.inputs ((busy_of_bare_eq h.bare).trans hb) htail
      exact ⟨u, (run_succ_of_step (M := core) _ (step_bus s t is hi)).trans hrun, hu.bare.trans h.bare,
        hu.inputs, hu.errLen.trans h.errLen, fun he => hu.errCmd (h.errCmd he),
        fun he => hu.errBusy (h.errBusy he)⟩

/-- R73, R74: a schedule without reset keeps pace with the turns alone, taken from a state `t` with the
same bare state. -/
theorem run_schedule (is : List Input) (s t : State) (hi : s.inputs = is) (hinv : s.Inv)
    (hw : s.Written) (hreset : is.any Input.isReset = false) (hst : t.bare = s.bare)
    (hb : (coreStep^[is.countP Input.isCore] t).busy = true) :
    ∃ u, core.run is.length s = .next u ∧ u.inputs = []
      ∧ u.bare = (coreStep^[is.countP Input.isCore] t).bare := by
  induction is generalizing s t with
  | nil => exact ⟨s, rfl, hi, hst.symm⟩
  | cons i is ih =>
    rw [List.any_cons, Bool.or_eq_false_iff] at hreset
    obtain ⟨hhead, htail⟩ := hreset
    cases i with
    | reset => nomatch hhead
    | core =>
      rw [List.countP_cons_of_pos rfl, Function.iterate_succ_apply] at hb ⊢
      obtain ⟨-, hinputs, -, hmem, hlen, -⟩ := coreStep_frame (s.setInputs is)
      have hw' : (coreStep (s.setInputs is)).Written := by
        rw [State.Written, hmem, hlen]
        exact hw
      obtain ⟨u, hrun, hu⟩ := ih _ (coreStep t) hinputs (hinv.setInputs is).coreStep hw' htail
        (coreStep_bare_congr (hinv.setInputs is) hw hst) hb
      exact ⟨u, (run_succ_of_step (M := core) _ (step_core s is hi)).trans hrun, hu⟩
    | bus x =>
      rw [List.countP_cons_of_neg Bool.false_ne_true] at hb ⊢
      have hbusy : s.busy = true := (busy_of_bare_eq hst).symm.trans (busy_of_busy_iterate hb)
      have h := undisturbed_bus (s := s.setInputs is) hbusy s.cfg x
      have hinv' := (hinv.setInputs is).hostEffect (hostEffect_bus s.cfg x _)
      have hw' : (after (decodeBus s.cfg x) (s.setInputs is)).Written :=
        (State.bare_written _).1 (h.bare ▸ hw)
      obtain ⟨u, hrun, hu⟩ := ih _ t h.inputs hinv' hw' htail (hst.trans h.bare.symm) hb
      exact ⟨u, (run_succ_of_step (M := core) _ (step_bus s x is hi)).trans hrun, hu⟩

end Sys2Proof.Machine

/-! ## The statements about bus transactions and runs under them -/

namespace Sys2Proof.Machine

/-- Settles O3: the read rows by the address map, the write rows through their read rows. -/
theorem encodeDecodeTransaction : Obligations.EncodeDecodeTransaction := by
  intro c t _
  have hread := decodeRead_readsAt c t.addr
  rw [← alignAddr_eq_shift, decodeBus]
  cases t.write with
  | false => exact ⟨hread.wf, hread.encodes⟩
  | true =>
    simp only [if_true, decodeWrite_eq_asWrite]
    exact hread.asWrite t.wdata t.wstrb

/-- Settles O45: a read changes the port and the counter of draws only. -/
theorem readsHaveNoSideEffect : Obligations.ReadsHaveNoSideEffect := by
  intro s t is hi ht
  obtain ⟨d, n, h⟩ := after_read s.cfg t (s.setInputs is) ht
  refine ⟨_, step_bus s t is hi, ?_⟩
  rw [h]
  exact ⟨⟨rfl, rfl, rfl, rfl⟩, ⟨rfl, rfl, rfl, rfl⟩, ⟨rfl, rfl, rfl⟩,
    ⟨rfl, fun _ => rfl⟩, rfl, rfl⟩

/-- Settles O51, by induction on the transactions. -/
theorem hostCannotDisturbRun : Obligations.HostCannotDisturbRun := by
  intro s hb hbus
  obtain ⟨u, hrun, hu⟩ := run_transactions s.inputs s rfl hb hbus
  obtain ⟨hseq, hhash, hmsg, hcfg⟩ := same_of_bare_eq hu.bare
  exact ⟨u, hrun, hu.inputs, hcfg, hseq, hhash, hmsg, hu.errLen, hu.errCmd, hu.errBusy⟩

/-- Settles O57: both runs keep one bare state, by induction on the schedule. -/
theorem interleavingDoesNotMatter : Obligations.InterleavingDoesNotMatter := by
  intro s v hinv hw hreset hv hb
  rw [run_of_no_inputs _ _ rfl] at hv
  obtain rfl := Host.Outcome.next.inj hv
  obtain ⟨u, hrun, hinputs, hu⟩ := run_schedule s.inputs s (s.setInputs []) rfl hinv hw hreset rfl hb
  obtain ⟨hseq, hhash, hmsg, -⟩ := same_of_bare_eq hu
  exact ⟨u, hrun, hinputs, hseq, hhash, hmsg⟩

/-- Settles O6: the two transactions decode to one instruction, and every instruction answers. -/
theorem lowAddressBitsIgnored : Obligations.LowAddressBitsIgnored := by
  intro s t is
  refine ⟨?_, _, step_bus _ t is rfl⟩
  rw [step_bus _ t is rfl, step_bus _ _ is rfl, decodeBus_align]
  rfl

end Sys2Proof.Machine

/-! ## Decoding what the encoder gives -/

namespace Sys2Proof

theorem windowAddr_toNat {base k : Nat} (h : base + 4 * k < 2 ^ 32) :
    (windowAddr base k).toNat = base + 4 * k := by
  rw [windowAddr, BitVec.toNat_ofNat, Nat.mod_eq_of_lt h]

/-- R32: word `k` of a window is the one at byte offset `4k`. -/
theorem ofNat_windowIndex {n : Nat} [NeZero n] (base : Nat) (k : Fin n) :
    Fin.ofNat n ((base + 4 * k.val - base) / 4) = k := by
  rw [Nat.add_sub_cancel_left, Nat.mul_div_cancel_left _ (by decide), Fin.ofNat_val_eq_self]

theorem alignAddr_of_aligned {a : Word} (h : a.toNat % 4 = 0) : alignAddr a = a := by
  apply BitVec.eq_of_toNat_eq
  rw [alignAddr_toNat]
  omega

section
variable {c : Config}

theorem decodeRead_rdDigest (j : Fin 8) :
    decodeRead c (alignAddr (windowAddr 0x020 j)) = .rdDigest j := by
  rw [decodeRead_alignAddr, windowAddr_toNat (show 0x020 + 4 * j.val < 2 ^ 32 by omega)]
  iterate 7 rw [if_neg (by omega)]
  rw [if_pos (by omega), ofNat_windowIndex]

theorem decodeRead_rdHex (q : Fin 16) :
    decodeRead c (alignAddr (windowAddr 0x040 q)) = .rdHex q := by
  rw [decodeRead_alignAddr, windowAddr_toNat (show 0x040 + 4 * q.val < 2 ^ 32 by omega)]
  iterate 8 rw [if_neg (by omega)]
  rw [if_pos (by omega), ofNat_windowIndex]

theorem decodeRead_rdDigestb (q : Fin 8) :
    decodeRead c (alignAddr (windowAddr 0x080 q)) = .rdDigestb q := by
  rw [decodeRead_alignAddr, windowAddr_toNat (show 0x080 + 4 * q.val < 2 ^ 32 by omega)]
  iterate 9 rw [if_neg (by omega)]
  rw [if_pos (by omega), ofNat_windowIndex]

/-- R8, R32: no offset of the memory carries the window's address past 2^32. -/
theorem decodeRead_rdMsg (hc : c.wf = true) {o : Word} (ho : c.msgOffset o.toNat = true) :
    decodeRead c (alignAddr (0x1000 + o)) = .rdMsg o := by
  obtain ⟨-, -, hcap⟩ := (Config.wf_iff c).1 hc
  simp only [Config.msgOffset, Bool.and_eq_true, decide_eq_true_eq] at ho
  have ha : (0x1000 + o).toNat = 0x1000 + o.toNat := by bv_omega
  have halign : alignAddr (0x1000 + o) = 0x1000 + o := alignAddr_of_aligned (by omega)
  have hin : c.inWindow (alignAddr (0x1000 + o)) = true := by
    rw [Config.inWindow_iff, halign]
    omega
  rw [decodeRead_window c _ hin, halign, BitVec.add_comm, BitVec.add_sub_cancel]

theorem decodeRead_rdRsv {a : Word} (ha : a.toNat % 4 = 0) (hres : c.reserved a.toNat = true) :
    decodeRead c (alignAddr a) = .rdRsv a := by
  simp only [Config.reserved, Bool.not_eq_true', Bool.or_eq_false_iff, Bool.and_eq_false_iff,
    decide_eq_false_iff_not] at hres
  have hout : ¬ c.inWindow (alignAddr a) = true := by
    rw [Config.inWindow_iff, alignAddr_of_aligned ha]
    omega
  rw [decodeRead_alignAddr]
  iterate 10 rw [if_neg (by omega)]
  rw [if_neg hout, alignAddr_of_aligned ha]

/-- A read row, at the address it encodes. -/
theorem decodeRead_of_encode (hc : c.wf = true) {i : Instr} (hi : i.wellFormed c = true) {a : Word}
    (h : encode i = .bus (readTx a)) : decodeRead c (alignAddr a) = i := by
  cases i with
  | rdId | rdCmd | rdStatus | rdMsgLen | rdBlocks | rdNblocks | rdMsgCap => cases h; rfl
  | rdDigest j => cases h; exact decodeRead_rdDigest j
  | rdHex q => cases h; exact decodeRead_rdHex q
  | rdDigestb q => cases h; exact decodeRead_rdDigestb q
  | rdMsg o => cases h; exact decodeRead_rdMsg hc hi
  | rdRsv a =>
    cases h
    obtain ⟨ha, hres⟩ := Bool.and_eq_true_iff.1 hi
    exact decodeRead_rdRsv (of_decide_eq_true ha) hres
  | _ => nomatch h

theorem decode_readTx (hc : c.wf = true) {i : Instr} (hi : i.wellFormed c = true) {a : Word}
    (h : encode i = .bus (readTx a)) : decode c (.bus (readTx a)) = .ok i :=
  congrArg Except.ok (decodeRead_of_encode hc hi h)

/-- R120, R121: a write to the address of a read row decodes to that row's write row. -/
theorem decode_writeTx (hc : c.wf = true) {i : Instr} (hi : i.wellFormed c = true) {a : Word}
    (h : encode i = .bus (readTx a)) (d : Word) (s : Strobe) :
    decode c (.bus (writeTx a d s)) = .ok (i.asWrite d s) :=
  congrArg Except.ok <| (decodeWrite_eq_asWrite c _ d s).trans
    (congrArg (Instr.asWrite d s) (decodeRead_of_encode hc hi h))

end

/-- R91, R92: a word is illegal exactly when it is none of the three commands. -/
theorem decodeCmd_eq_cmdIllegal_iff (d : Word) : decodeCmd d = .cmdIllegal d ↔ 3 ≤ d.toNat := by
  unfold decodeCmd
  split_ifs with h0 h1 h2
  · simp [h0]
  · simp [h1]
  · simp [h2]
  · simp only [true_iff]
    bv_omega

end Sys2Proof

/-! ## The rows of the opcode table as ranges of keys -/

namespace Sys2Proof

/-- A mask that clears the low `n` bits compares by range: the `2^n` keys from the match on. -/
theorem and_mask_eq_iff {w : Nat} (n : Nat) (k m : BitVec w) (hm : 2 ^ n ∣ m.toNat) :
    k &&& BitVec.allOnes w <<< n = m ↔ m.toNat ≤ k.toNat ∧ k.toNat < m.toNat + 2 ^ n := by
  obtain ⟨q, hq⟩ := hm
  have hk : ((k >>> n) <<< n).toNat = 2 ^ n * (k.toNat / 2 ^ n) := by
    rw [BitVec.toNat_shiftLeft, BitVec.toNat_ushiftRight, Nat.shiftLeft_eq, Nat.shiftRight_eq_div_pow,
      Nat.mul_comm]
    exact Nat.mod_eq_of_lt (Nat.lt_of_le_of_lt (Nat.mul_div_le _ _) k.isLt)
  have hpos := Nat.two_pow_pos n
  rw [← BitVec.shiftLeft_ushiftRight, ← BitVec.toNat_inj, hk, hq, Nat.mul_right_inj hpos.ne',
    Nat.div_eq_iff hpos, Nat.mul_comm]
  omega

/-- R95: how many keys a row's mask lets through. -/
def rowSize (mask : BitVec 33) : Nat := 2 ^ 33 - mask.toNat

theorem busRow_applies_iff {row : String × BitVec 33 × BitVec 33} (hrow : row ∈ busRows)
    (k : BitVec 33) : k &&& row.2.2 = row.2.1
      ↔ row.2.1.toNat ≤ k.toNat ∧ k.toNat < row.2.1.toNat + rowSize row.2.2 := by
  have hmasks : ∀ row ∈ busRows, ∃ n ∈ [2, 5, 6, 12],
      row.2.2 = BitVec.allOnes 33 <<< n ∧ 2 ^ n ∣ row.2.1.toNat ∧ rowSize row.2.2 = 2 ^ n := by decide
  obtain ⟨n, -, hmask, hdvd, hsize⟩ := hmasks row hrow
  rw [hsize, hmask]
  exact and_mask_eq_iff n k row.2.1 hdvd

/-- The keys from `lo` up to `hi` are keys of the row with the mnemonic `n`, if the table has one, and
of no other. -/
abbrev KeysOfRow (n : String) (lo hi : Nat) : Prop :=
  ∀ row ∈ busRows,
    if n = row.1 then row.2.1.toNat ≤ lo ∧ hi ≤ row.2.1.toNat + rowSize row.2.2
    else hi ≤ row.2.1.toNat ∨ row.2.1.toNat + rowSize row.2.2 ≤ lo

/-- The rows that apply to a key are those with the instruction's mnemonic. -/
def Instr.RowsAt (k : BitVec 33) (i : Instr) : Prop :=
  ∀ row ∈ busRows, (k &&& row.2.2 = row.2.1 ↔ i.mnemonic = row.1)

theorem KeysOfRow.rowsAt {i : Instr} {lo hi : Nat} (h : KeysOfRow i.mnemonic lo hi) {k : BitVec 33}
    (hk : lo ≤ k.toNat ∧ k.toNat < hi) : i.RowsAt k := by
  intro row hrow
  have hrange := h row hrow
  rw [busRow_applies_iff hrow]
  split at hrange
  next hn => exact iff_of_true (by omega) hn
  next hn => exact iff_of_false (by omega) hn

/-- A read row at an address, and its write row at the same address. -/
structure Instr.PairAt (a : Word) (i : Instr) : Prop where
  read : i.RowsAt (BitVec.ofBool false ++ a)
  write (d : Word) (s : Strobe) : (i.asWrite d s).RowsAt (BitVec.ofBool true ++ a)

theorem pairAt_of_range {i : Instr} {a : Word} (lo hi : Nat) (r w : String)
    (ha : lo ≤ a.toNat ∧ a.toNat < hi) (hr : i.mnemonic = r := by rfl)
    (hw : ∀ d s, (i.asWrite d s).mnemonic = w := by intros; rfl)
    (hrow : KeysOfRow r lo hi ∧ KeysOfRow w (2 ^ 32 + lo) (2 ^ 32 + hi) := by decide) :
    i.PairAt a := by
  have hkey (b : Bool) : (BitVec.ofBool b ++ a).toNat = b.toNat * 2 ^ 32 + a.toNat := by
    rw [BitVec.toNat_append, ← Nat.shiftLeft_add_eq_or_of_lt a.isLt, Nat.shiftLeft_eq,
      BitVec.toNat_ofBool]
  refine ⟨KeysOfRow.rowsAt (hr ▸ hrow.1) ?_, fun d s => KeysOfRow.rowsAt (hw d s ▸ hrow.2) ?_⟩
  · rw [hkey]; simpa using ha
  · rw [hkey]; simpa using ha

theorem pairAt_ite {a : Word} {p : Prop} [Decidable p] {i j : Instr}
    (hi : p → i.PairAt a) (hj : ¬ p → j.PairAt a) : (if p then i else j).PairAt a :=
  iteInduction hi hj

/-- R70, R95, for the table's `MSG_MEM_BYTES`: each range of the address map is one pair of rows, or lies
in no row. -/
theorem decodeRead_pairAt (a : Word) : (decodeRead Config.default (alignAddr a)).PairAt a := by
  have halign := alignAddr_toNat a
  have hin : Config.default.inWindow (alignAddr a) = true ↔ 0x1000 ≤ a.toNat ∧ a.toNat < 0x2000 := by
    rw [Config.inWindow_iff, show Config.default.cap = 0x1000 from rfl]
    omega
  rw [decodeRead_alignAddr]
  refine pairAt_ite (fun _ => pairAt_of_range 0x000 0x004 "RD_ID" "WR_ID" (by omega)) fun h0 => ?_
  refine pairAt_ite (fun _ => pairAt_of_range 0x004 0x008 "RD_CMD" "WR_CMD" (by omega)) fun h1 => ?_
  refine pairAt_ite (fun _ => pairAt_of_range 0x008 0x00C "RD_STATUS" "WR_STATUS" (by omega))
    fun h2 => ?_
  refine pairAt_ite (fun _ => pairAt_of_range 0x00C 0x010 "RD_MSG_LEN" "WR_MSG_LEN" (by omega))
    fun h3 => ?_
  refine pairAt_ite (fun _ => pairAt_of_range 0x010 0x014 "RD_BLOCKS" "WR_BLOCKS" (by omega))
    fun h4 => ?_
  refine pairAt_ite (fun _ => pairAt_of_range 0x014 0x018 "RD_NBLOCKS" "WR_NBLOCKS" (by omega))
    fun h5 => ?_
  refine pairAt_ite (fun _ => pairAt_of_range 0x018 0x01C "RD_MSG_CAP" "WR_MSG_CAP" (by omega))
    fun h6 => ?_
  refine pairAt_ite (fun h => pairAt_of_range 0x020 0x040 "RD_DIGEST" "WR_DIGEST" h) fun h7 => ?_
  refine pairAt_ite (fun h => pairAt_of_range 0x040 0x080 "RD_HEX" "WR_HEX" h) fun h8 => ?_
  refine pairAt_ite (fun h => pairAt_of_range 0x080 0x0A0 "RD_DIGESTB" "WR_DIGESTB" h) fun h9 => ?_
  refine pairAt_ite (fun h => pairAt_of_range 0x1000 0x2000 "RD_MSG" "WR_MSG" (hin.1 h))
    fun h10 => ?_
  rw [hin] at h10
  have ha := a.isLt
  by_cases hlow : a.toNat < 0x020
  · exact pairAt_of_range 0x01C 0x020 "RD_RSV" "WR_RSV" (by omega)
  by_cases hmid : a.toNat < 0x1000
  · exact pairAt_of_range 0x0A0 0x1000 "RD_RSV" "WR_RSV" (by omega)
  · exact pairAt_of_range 0x2000 (2 ^ 32) "RD_RSV" "WR_RSV" (by omega)

/-- R94, R95: the rows that apply to a transaction's key are those of the decoder's instruction. -/
theorem decodeBus_rowsAt (t : BusTx) : (decodeBus Config.default t).RowsAt t.key := by
  obtain ⟨w, a, d, s⟩ := t
  have hpair := decodeRead_pairAt a
  cases w with
  | false => exact hpair.read
  | true =>
    rw [decodeBus, if_pos rfl, decodeWrite_eq_asWrite]
    exact hpair.write d s

end Sys2Proof

/-! ## LOADMSG: the words of a message -/

namespace Sys2Proof.Machine

/-- R63: lane `m` of a word made of four bytes. -/
theorem lane_ofLanes (b0 b1 b2 b3 : Byte) {m : Nat} (hm : m < 4) :
    lane (ofLanes b0 b1 b2 b3) m = [b0, b1, b2, b3][m] := by
  have h0 := b0.isLt; have h1 := b1.isLt; have h2 := b2.isLt; have h3 := b3.isLt
  apply BitVec.eq_of_toNat_eq
  rw [lane_toNat, ofLanes_eq_be32, be32_toNat]
  interval_cases m <;> simp only [List.getElem_cons_zero, List.getElem_cons_succ] <;> omega

/-- The strobed lanes of a data word are the first bytes of `bs`, up to four. -/
def Carries (d : Word) (st : Strobe) (bs : List Byte) : Prop :=
  ∀ m, m < 4 → (if st.getLsbD m then some (lane d m) else none) = bs[m]?

theorem carries_take (b0 b1 b2 b3 : Byte) {st : Strobe} {n : Nat}
    (hst : ∀ m, m < 4 → st.getLsbD m = decide (m < n)) :
    Carries (ofLanes b0 b1 b2 b3) st ([b0, b1, b2, b3].take n) := by
  intro m hm
  rw [lane_ofLanes b0 b1 b2 b3 hm, ← List.getElem?_eq_getElem, List.getElem?_take]
  exact if_congr (by rw [hst m hm, decide_eq_true_eq]) rfl rfl

/-- R99: the first word of what is left of the message, and the rest. -/
theorem loadMsgFrom_of_ne_nil (q : Nat) {bs : List Byte} (h : bs ≠ []) :
    ∃ d st, Carries d st bs ∧ Script.loadMsgFrom q bs
      = Script.wr (windowAddr 0x1000 q) d st :: Script.loadMsgFrom (q + 1) (bs.drop 4) := by
  match bs with
  | [b0] => exact ⟨_, _, carries_take b0 0 0 0 (n := 1) (by decide), rfl⟩
  | [b0, b1] => exact ⟨_, _, carries_take b0 b1 0 0 (n := 2) (by decide), rfl⟩
  | [b0, b1, b2] => exact ⟨_, _, carries_take b0 b1 b2 0 (n := 3) (by decide), rfl⟩
  | b0 :: b1 :: b2 :: b3 :: bs =>
    refine ⟨_, _, fun m hm => ?_, rfl⟩
    rw [carries_take b0 b1 b2 b3 (n := 4) (by decide) m hm]
    exact (List.getElem?_append_left hm).symm

/-- R62: every byte after the write of a word that carries the first bytes of `bs`. -/
theorem Carries.get?_storeLanes {d : Word} {st : Strobe} {bs : List Byte} (h : Carries d st bs)
    {cap o : Nat} (hcap : o + bs.length ≤ cap) (m : Memory) (x : Nat) :
    (storeLanes cap o d st m).get? x =
      if o ≤ x ∧ x < o + 4 then bs[x - o]?.or (m.get? x) else m.get? x := by
  rw [Machine.get?_storeLanes]
  by_cases hx : o ≤ x ∧ x < o + 4
  · have hlane := h (x - o) (by omega)
    rw [if_pos hx, ← hlane]
    by_cases hs : st.getLsbD (x - o) = true
    · rw [if_pos hs] at hlane ⊢
      obtain ⟨hlt, -⟩ := List.getElem?_eq_some_iff.1 hlane.symm
      rw [if_pos ⟨hx.1, hx.2, by omega, hs⟩, Option.some_or]
    · rw [if_neg hs, if_neg fun ⟨_, _, _, hst⟩ => hs hst, Option.none_or]
  · rw [if_neg hx, if_neg fun ⟨hlo, hhi, _⟩ => hx ⟨hlo, hhi⟩]

theorem after_wrMsg {s : State} (hb : s.busy = false) (o d : Word) (st : Strobe) :
    after (.wrMsg o d st) s = s.setMem (storeLanes s.cfg.cap o.toNat d st s.mem) :=
  if_neg (Bool.eq_false_iff.1 hb)

/-- R127: a write to word `q` of the message window, accepted. -/
theorem step_wrWindow {s : State} {q : Nat} {d : Word} {st : Strobe} {is : List Input}
    (hi : s.inputs = Script.wr (windowAddr 0x1000 q) d st :: is) (hc : s.cfg.wf = true)
    (hb : s.busy = false) (hq : 4 * q < s.cfg.cap) :
    step s = .next ((s.setInputs is).setMem (storeLanes s.cfg.cap (4 * q) d st s.mem)) := by
  obtain ⟨-, -, hcap⟩ := (Config.wf_iff _).1 hc
  have ho : (BitVec.ofNat 32 (4 * q)).toNat = 4 * q := Nat.mod_eq_of_lt (by omega)
  have hwf : (Instr.rdMsg (BitVec.ofNat 32 (4 * q))).wellFormed s.cfg = true := by
    simp [Instr.wellFormed, Config.msgOffset, ho, hq]
  have henc : encode (.rdMsg (BitVec.ofNat 32 (4 * q))) = .bus (readTx (windowAddr 0x1000 q)) := by
    rw [windowAddr, BitVec.ofNat_add]
    rfl
  have hdec : decodeBus s.cfg (writeTx (windowAddr 0x1000 q) d st)
      = .wrMsg (BitVec.ofNat 32 (4 * q)) d st :=
    Except.ok.inj (decode_writeTx hc hwf henc d st)
  rw [step_bus s _ is hi, hdec, after_wrMsg (s := s.setInputs is) hb, ho]
  rfl

/-- R99: the transactions of the message from word `q` on, one after the other. -/
theorem run_loadMsgFrom (q : Nat) (bs : List Byte) (s : State) (hc : s.cfg.wf = true)
    (hb : s.busy = false) (hcap : 4 * q + bs.length ≤ s.cfg.cap)
    (hi : s.inputs = Script.loadMsgFrom q bs) :
    ∃ m : Memory, core.run (Script.loadMsgFrom q bs).length s = .next ((s.setMem m).setInputs [])
      ∧ ∀ x, m.get? x = if 4 * q ≤ x then bs[x - 4 * q]?.or (s.mem.get? x) else s.mem.get? x := by
  induction hn : bs.length using Nat.strong_induction_on generalizing q bs s with
  | _ n ih =>
    by_cases hbs : bs = []
    · subst hbs
      refine ⟨s.mem, congrArg Host.Outcome.next (congrArg s.setInputs hi), fun x => ?_⟩
      rw [List.getElem?_nil, Option.none_or, ite_self]
    · obtain ⟨d, st, hcarries, heq⟩ := loadMsgFrom_of_ne_nil q hbs
      obtain ⟨hmod, -⟩ := (Config.wf_iff _).1 hc
      have hpos := List.length_pos_iff.2 hbs
      rw [heq] at hi ⊢
      have hdrop : (bs.drop 4).length = bs.length - 4 := List.length_drop
      have hstep := step_wrWindow hi hc hb (by omega)
      have hrest : 4 * (q + 1) + (bs.drop 4).length ≤ s.cfg.cap := by omega
      obtain ⟨m, hrun, hm⟩ := ih _ (by omega) (q + 1) (bs.drop 4)
        ((s.setInputs (Script.loadMsgFrom (q + 1) (bs.drop 4))).setMem
          (storeLanes s.cfg.cap (4 * q) d st s.mem)) hc hb hrest rfl rfl
      refine ⟨m, (run_succ_of_step (M := core) _ hstep).trans hrun, fun x => ?_⟩
      simp only [hm, State.setMem_mem, hcarries.get?_storeLanes hcap, List.getElem?_drop]
      by_cases hlo : 4 * q ≤ x
      · by_cases hhi : x < 4 * q + 4
        · rw [if_neg (by omega), if_pos ⟨hlo, hhi⟩, if_pos hlo]
        · rw [if_pos (by omega), if_neg (by omega), if_pos hlo,
            show 4 + (x - 4 * (q + 1)) = x - 4 * q by omega]
      · rw [if_neg (by omega), if_neg (by omega), if_neg hlo]

end Sys2Proof.Machine

/-! ## The statements about encoding and the message words -/

namespace Sys2Proof.Machine

/-- Settles O2: the read rows by the address map, the write rows through their read rows. -/
theorem decodeEncodeRoundTrip : Obligations.DecodeEncodeRoundTrip := by
  intro c i hc hi
  cases i with
  | rdId | rdCmd | rdStatus | rdMsgLen | rdBlocks | rdNblocks | rdMsgCap | rdDigest | rdHex
  | rdDigestb | rdMsg | rdRsv =>
    exact decode_readTx hc hi rfl
  | wrId d s => exact decode_writeTx (i := .rdId) hc hi rfl d s
  | wrCmd d s => exact decode_writeTx (i := .rdCmd) hc hi rfl d s
  | wrStatus d s => exact decode_writeTx (i := .rdStatus) hc hi rfl d s
  | wrMsgLen d s => exact decode_writeTx (i := .rdMsgLen) hc hi rfl d s
  | wrBlocks d s => exact decode_writeTx (i := .rdBlocks) hc hi rfl d s
  | wrNblocks d s => exact decode_writeTx (i := .rdNblocks) hc hi rfl d s
  | wrMsgCap d s => exact decode_writeTx (i := .rdMsgCap) hc hi rfl d s
  | wrDigest j d s => exact decode_writeTx (i := .rdDigest j) hc hi rfl d s
  | wrHex q d s => exact decode_writeTx (i := .rdHex q) hc hi rfl d s
  | wrDigestb q d s => exact decode_writeTx (i := .rdDigestb q) hc hi rfl d s
  | wrMsg o d s => exact decode_writeTx (i := .rdMsg o) hc hi rfl d s
  | wrRsv a d s => exact decode_writeTx (i := .rdRsv a) hc hi rfl d s
  | cmdIllegal d =>
    exact congrArg Except.ok ((decodeCmd_eq_cmdIllegal_iff d).2 (of_decide_eq_true hi))
  | cmdNop | cmdStart | cmdClear => rfl
  | uopLoad | uopSched | uopCinit | uopRound | uopFeed | uopFinal => rfl

/-- Settles O4: a row applies by its mnemonic, and no mnemonic stands in two rows. -/
theorem busRowsSelect : Obligations.BusRowsSelect := by
  intro t
  have hrows := decodeBus_rowsAt t
  refine ⟨hrows, ?_⟩
  calc (busRows.filter fun row => decide (t.key &&& row.2.2 = row.2.1)).length
      = busRows.countP ((· == (decodeBus Config.default t).mnemonic) ∘ Prod.fst) := by
        rw [← List.countP_eq_length_filter]
        refine List.countP_congr fun row hrow => ?_
        rw [decide_eq_true_iff, hrows row hrow, Function.comp_apply, beq_iff_eq, eq_comm]
    _ = (busRows.map Prod.fst).count (decodeBus Config.default t).mnemonic := List.countP_map.symm
    _ ≤ 1 := List.nodup_iff_count_le_one.1 (by decide) _

/-- Settles O5: `RSV` and `OP` as quotient and remainder of the word by 2^8. -/
theorem illegalWords : Obligations.IllegalWords := by
  intro d
  have hrsv : (d.extractLsb' 8 24).toNat = d.toNat / 2 ^ 8 % 2 ^ 24 := by
    rw [BitVec.extractLsb'_toNat, Nat.shiftRight_eq_div_pow]
  have hop : (d.extractLsb' 0 8).toNat = d.toNat % 2 ^ 8 := by
    rw [BitVec.extractLsb'_toNat, Nat.shiftRight_zero]
  have hd := d.isLt
  rw [decodeCmd_eq_cmdIllegal_iff]
  simp only [ne_eq, ← BitVec.toNat_inj, hrsv, hop, BitVec.ofNat_eq_ofNat, BitVec.toNat_ofNat]
  omega

/-- Settles O55, by induction on the words of the message. -/
theorem loadMsgStoresMessage : Obligations.LoadMsgStoresMessage := by
  intro s msg hc hb hcap hi
  obtain ⟨m, hrun, hm⟩ := run_loadMsgFrom 0 msg s hc hb (by omega) hi
  refine ⟨_, hrun, rfl, fun i hlt => ?_, fun o hge => ?_, ⟨rfl, rfl, rfl, rfl⟩, ⟨rfl, rfl, rfl, rfl⟩,
    ⟨rfl, rfl, rfl⟩, rfl, rfl⟩
  · rw [State.setInputs_mem, State.setMem_mem, hm, if_pos (by omega)]
    simp [hlt]
  · rw [State.setInputs_mem, State.setMem_mem, hm, if_pos (by omega)]
    simp [hge]

/-- Settles O1, each word by evaluation of the decoder. -/
theorem decodeWrittenWords : Obligations.DecodeWrittenWords := by
  unfold Obligations.DecodeWrittenWords
  decide

end Sys2Proof.Machine

/-! ## What the host's instructions answer -/

namespace Sys2Proof.Machine

/-! ### What a state keeps of itself -/

theorem SameSequencer.refl (s : State) : SameSequencer s s := ⟨rfl, rfl, rfl, rfl⟩
theorem SameHash.refl (s : State) : SameHash s s := ⟨rfl, rfl, rfl, rfl⟩
theorem SameFlags.refl (s : State) : SameFlags s s := ⟨rfl, rfl, rfl⟩
theorem SameMessage.refl (s : State) : SameMessage s s := ⟨rfl, fun _ => rfl⟩
theorem SameSurroundings.refl (s : State) : SameSurroundings s s := ⟨rfl, rfl⟩

/-- R67: an answer on the port changes no state element. -/
theorem sameState_answer (s : State) (d : Word) (n : Nat) : SameState s ((s.setRdata d).draw n) :=
  ⟨.refl s, .refl s, .refl s, .refl s, .refl s⟩

/-! ### Commands and writes -/

theorem after_cmdStart_of_busy {s : State} (hb : s.busy = true) :
    after .cmdStart s = s.setFlag .busy := if_pos hb

theorem after_cmdStart_of_cap_lt {s : State} (hb : s.busy = false) (hl : s.cfg.cap < s.msgLen.toNat) :
    after .cmdStart s = (s.setFlag .len).goTo .idle 0 :=
  (if_neg (Bool.eq_false_iff.1 hb)).trans (if_pos hl)

theorem after_cmdStart_of_le_cap {s : State} (hb : s.busy = false) (hl : s.msgLen.toNat ≤ s.cfg.cap) :
    after .cmdStart s = s.started :=
  (if_neg (Bool.eq_false_iff.1 hb)).trans (if_neg (Nat.not_lt.2 hl))

theorem after_cmdClear_of_busy {s : State} (hb : s.busy = true) :
    after .cmdClear s = s.setFlag .busy := if_pos hb

theorem after_cmdClear {s : State} (hb : s.busy = false) :
    after .cmdClear s = (s.clearFlags.setBlocks 0 0).goTo .idle 0 := if_neg (Bool.eq_false_iff.1 hb)

theorem after_wrMsgLen_of_busy {s : State} (hb : s.busy = true) (d : Word) (st : Strobe) :
    after (.wrMsgLen d st) s = s.setFlag .busy := if_pos hb

theorem after_wrMsgLen {s : State} (hb : s.busy = false) (d : Word) (st : Strobe) :
    after (.wrMsgLen d st) s = s.setMsgLen d := if_neg (Bool.eq_false_iff.1 hb)

theorem after_wrMsg_of_busy {s : State} (hb : s.busy = true) (o d : Word) (st : Strobe) :
    after (.wrMsg o d st) s = s.setFlag .busy := if_pos hb

/-! ### Flags that are newly set -/

theorem newFlags_of_sameFlags {s u : State} (h : SameFlags s u) : newFlags s u = 0 := by
  obtain ⟨hcmd, hbusy, hlen⟩ := h
  simp [newFlags, hcmd, hbusy, hlen]

theorem newFlags_setFlag_le_one (s : State) (f : ErrFlag) : newFlags s (s.setFlag f) ≤ 1 := by
  cases f <;> simp [newFlags, Bool.toNat_le]

/-- R243: a transaction sets at most one flag. -/
theorem HostEffect.newFlags_le_one {t : BusTx} {s u : State} (he : HostEffect t s u) :
    newFlags s u ≤ 1 := by
  cases he with
  | answered | ignored | msgLenWritten | messageWritten | started =>
    exact (newFlags_of_sameFlags ⟨rfl, rfl, rfl⟩).trans_le (Nat.zero_le 1)
  | flagged f => exact newFlags_setFlag_le_one s f
  | lengthRefused => exact newFlags_setFlag_le_one s .len
  | cleared => simp [newFlags]

end Sys2Proof.Machine

/-! ## The values that a read answers -/

namespace Sys2Proof.Machine

/-- R40: byte `m` of a big-endian word, the first byte at the top. -/
theorem lane_be32 (b0 b1 b2 b3 : Byte) (m : Fin 4) :
    lane (be32 b0 b1 b2 b3) (3 - m.val) = [b0, b1, b2, b3][m] := by
  rw [← ofLanes_eq_be32, lane_ofLanes _ _ _ _ (by omega)]
  match m with
  | 0 | 1 | 2 | 3 => rfl

/-- R135: the word window holds the bytes of the digest with the first one at the top. -/
theorem lane_digestWord (dg : Vector Byte 32) (j : Fin 8) (m : Fin 4) :
    lane (digestWord dg j) (3 - m.val) = dg[4 * j.val + m.val] := by
  rw [digestWord, lane_be32]
  match m with
  | 0 | 1 | 2 | 3 => rfl

/-- R137: the byte window holds them with the first one in lane 0. -/
theorem lane_digestbWord (dg : Vector Byte 32) (j : Fin 8) (m : Fin 4) :
    lane (digestbWord dg j) m.val = dg[4 * j.val + m.val] := by
  rw [digestbWord, lane_ofLanes _ _ _ _ m.isLt]
  match m with
  | 0 | 1 | 2 | 3 => rfl

/-- R136: the hex window holds four characters of the rendering. -/
theorem lane_hexWord (dg : Vector Byte 32) (q : Fin 16) (m : Fin 4) :
    lane (hexWord dg q) m.val = hexChar dg ⟨4 * q.val + m.val, by omega⟩ := by
  rw [hexWord, lane_ofLanes _ _ _ _ m.isLt]
  match m with
  | 0 | 1 | 2 | 3 => rfl

/-- R128: each lane of a message read is a byte of the memory, with a draw of its own. -/
theorem lane_loadLanes (mem : Memory) (o k : Nat) (m : Fin 4) :
    lane (loadLanes mem o k) m.val = mem.read (o + m.val) (k + m.val) := by
  rw [loadLanes, lane_ofLanes _ _ _ _ m.isLt]
  match m with
  | 0 | 1 | 2 | 3 => rfl

/-- R221: the character codes of a nibble. -/
theorem hexDigit_toNat {v : Byte} (hv : v.toNat < 16) :
    (hexDigit v).toNat = if v.toNat ≤ 9 then 0x30 + v.toNat else 0x61 + (v.toNat - 10) := by
  unfold hexDigit
  split_ifs <;> bv_omega

/-- R221: character `i` as a number, from nibble `i` of the digest, the high nibble first. -/
theorem hexChar_toNat (dg : Vector Byte 32) (i : Fin 64) {v : Nat}
    (hv : v = if i.val % 2 = 0 then dg[i.val / 2].toNat / 16 else dg[i.val / 2].toNat % 16) :
    (hexChar dg i).toNat = if v ≤ 9 then 0x30 + v else 0x61 + (v - 10) := by
  have hnibble : (if i.val % 2 = 0 then dg[i.val / 2] >>> 4 else dg[i.val / 2] &&& 0x0F).toNat = v := by
    rw [hv, apply_ite BitVec.toNat, BitVec.toNat_ushiftRight, Nat.shiftRight_eq_div_pow,
      BitVec.toNat_and]
    exact if_congr Iff.rfl rfl (Nat.and_two_pow_sub_one_eq_mod _ 4)
  have hlt : v < 16 := by
    have := dg[i.val / 2].isLt
    split at hv <;> omega
  rw [hexChar, hexDigit_toNat (hnibble ▸ hlt), hnibble]

theorem State.gated_of_done {s : State} (h : s.phase = .done) (v : Word) : s.gated v = v := if_pos h

theorem State.gated_of_ne_done {s : State} (h : s.phase ≠ .done) (v : Word) : s.gated v = 0 := if_neg h

/-- R35: the flag bits of `STATUS`. -/
theorem State.status_bits (s : State) :
    s.status.getLsbD 0 = s.busy ∧ s.status.getLsbD 1 = s.doneOut ∧ s.status.getLsbD 2 = s.errCmd
      ∧ s.status.getLsbD 3 = s.errBusy ∧ s.status.getLsbD 4 = s.errLen := by
  simp only [State.status, BitVec.getLsbD_append]
  simp

/-- R35: the fields of `STATUS` above the flags, each read after the fields below it are shifted out. -/
theorem State.status_fields (s : State) :
    s.status.extractLsb' 5 3 = 0 ∧ s.status.extractLsb' 8 3 = s.phase.code
      ∧ s.status.extractLsb' 11 5 = 0 ∧ s.status.extractLsb' 16 7 = s.stepIdx
      ∧ s.status.extractLsb' 23 9 = 0 := by
  unfold State.status
  refine ⟨?_, ?_, ?_, ?_, ?_⟩
  · iterate 5 rw [BitVec.extractLsb'_append_eq_of_le (by decide)]
    exact BitVec.extractLsb'_append_eq_right
  · iterate 6 rw [BitVec.extractLsb'_append_eq_of_le (by decide)]
    exact BitVec.extractLsb'_append_eq_right
  · iterate 7 rw [BitVec.extractLsb'_append_eq_of_le (by decide)]
    exact BitVec.extractLsb'_append_eq_right
  · iterate 8 rw [BitVec.extractLsb'_append_eq_of_le (by decide)]
    exact BitVec.extractLsb'_append_eq_right
  · iterate 9 rw [BitVec.extractLsb'_append_eq_of_le (by decide)]
    exact BitVec.extractLsb'_eq_self

theorem State.busy_iff (s : State) : s.busy = true ↔ s.phase ≠ .idle ∧ s.phase ≠ .done := by
  rw [← not_or, ← s.busy_eq_false_iff, Bool.not_eq_false]

theorem State.doneOut_iff (s : State) : s.doneOut = true ↔ s.phase = .done := decide_eq_true_iff

end Sys2Proof.Machine

/-! ## The row that an address selects, read or written -/

namespace Sys2Proof

theorem eq_windowAddr {a : Word} {base k : Nat} (h : a.toNat = base + 4 * k) :
    a = windowAddr base k := by
  rw [windowAddr, ← h, BitVec.ofNat_toNat, BitVec.setWidth_eq]

theorem Config.reserved_iff (c : Config) (n : Nat) :
    c.reserved n = true ↔
      0x1C ≤ n ∧ (n < 0x20 ∨ 0xA0 ≤ n) ∧ (n < 0x1000 ∨ 0x1000 + c.cap ≤ n) := by
  simp [Config.reserved, and_assoc]

/-- R70, R140: a reserved word decodes to the reserved rows. -/
theorem decodeRead_reserved {c : Config} {a : Word} (h : c.reserved (alignAddr a).toNat = true) :
    decodeRead c (alignAddr a) = .rdRsv (alignAddr a) := by
  have haligned : (alignAddr a).toNat % 4 = 0 := by rw [alignAddr_toNat, Nat.mul_mod_left]
  simpa only [alignAddr_alignAddr] using decodeRead_rdRsv haligned h

namespace Machine

section
variable {s : State} {t : BusTx} {is : List Input} (hi : s.inputs = .bus t :: is)
include hi

/-- R121: a read runs the row at its aligned address. -/
theorem step_read (ht : t.write = false) :
    step s = exec (decodeRead s.cfg (alignAddr t.addr)) (s.setInputs is) := by
  rw [step_bus s t is hi, ← exec_eq_next, decodeBus, ht]
  rfl

/-- R120: a write runs the row at its aligned address. -/
theorem step_write (ht : t.write = true) :
    step s = exec (decodeWrite s.cfg (alignAddr t.addr) t.wdata t.wstrb) (s.setInputs is) := by
  rw [step_bus s t is hi, ← exec_eq_next, decodeBus, ht]
  rfl

/-- R140: a read of a reserved word answers 0. -/
theorem step_read_reserved (ht : t.write = false)
    (h : s.cfg.reserved (alignAddr t.addr).toNat = true) :
    step s = .next ((s.setInputs is).setRdata 0) := by
  rw [step_read hi ht, decodeRead_reserved h]
  rfl

/-- R140: a write to a reserved word is ignored. -/
theorem step_write_reserved (ht : t.write = true)
    (h : s.cfg.reserved (alignAddr t.addr).toNat = true) : step s = .next (s.setInputs is) := by
  rw [step_write hi ht, decodeWrite_eq_asWrite, decodeRead_reserved h]
  rfl

end

end Machine

end Sys2Proof

/-! ## The statements about the host interface -/

namespace Sys2Proof.Machine

/-- Settles O8: the write row at each address; outside the three rows every row ignores the write. -/
theorem busWriteSelectsRule : Obligations.BusWriteSelectsRule := by
  rintro s t is _ hi ht rfl
  rw [← alignAddr_eq_shift]
  have hrow := step_write hi ht
  refine ⟨fun h => ?_, fun h => ?_, fun hlo hhi => ?_, fun hcmd hlen hwin => ?_⟩
  · rw [hrow, h]; rfl
  · rw [hrow, h]; rfl
  · rw [hrow, decodeWrite_window _ _ _ _ ((Config.inWindow_iff _ _).2 ⟨hlo, hhi⟩)]
  · rw [step_bus s t is hi, after_write _ _ _ ht,
      if_neg (mt (alignAddr_eq_iff t.addr 1 (by decide)).2 hcmd),
      if_neg (mt (alignAddr_eq_iff t.addr 3 (by decide)).2 hlen),
      if_neg (mt (Config.inWindow_iff _ _).1 hwin)]

/-- Settles O9: the read row at each address of the map. -/
theorem busReadSelectsRule : Obligations.BusReadSelectsRule := by
  rintro s t is _ hi ht rfl
  rw [← alignAddr_eq_shift]
  have hat {i : Instr} {b : Word} (hb : alignAddr t.addr = b)
      (h : decodeRead s.cfg (alignAddr b) = i) : step s = exec i (s.setInputs is) := by
    rw [step_read hi ht, ← h, ← hb, alignAddr_alignAddr]
  refine ⟨fun h => hat h rfl, fun h => hat h rfl, fun h => hat h rfl, fun h => hat h rfl,
    fun h => hat h rfl, fun h => hat h rfl, fun h => hat h rfl,
    fun j h => hat (eq_windowAddr h) (decodeRead_rdDigest j),
    fun q h => hat (eq_windowAddr h) (decodeRead_rdHex q),
    fun q h => hat (eq_windowAddr h) (decodeRead_rdDigestb q), fun hlo hhi => ?_, fun h => ?_⟩
  · rw [step_read hi ht, decodeRead_window _ _ ((Config.inWindow_iff _ _).2 ⟨hlo, hhi⟩)]
  · refine step_read_reserved hi ht ((Config.reserved_iff _ _).2 ?_)
    bv_omega

/-- Settles O13: refused while busy, refused for its length, or started. -/
theorem startCommand : Obligations.StartCommand := by
  intro s
  refine ⟨_, exec_eq_next .cmdStart s, ?_⟩
  cases hb : s.busy with
  | true =>
    rw [after_cmdStart_of_busy hb]
    exact ⟨rfl, rfl, rfl, rfl, .refl s, .refl s, fun _ => ⟨rfl, rfl, rfl, .refl s⟩, nofun, nofun⟩
  | false =>
    by_cases hl : s.cfg.cap < s.msgLen.toNat
    · rw [after_cmdStart_of_cap_lt hb hl]
      exact ⟨rfl, rfl, rfl, rfl, .refl s, .refl s, nofun,
        fun _ _ => ⟨rfl, rfl, rfl, rfl, rfl, rfl, rfl⟩, fun _ hle => absurd hl (Nat.not_lt.2 hle)⟩
    · rw [after_cmdStart_of_le_cap hb (Nat.le_of_not_lt hl)]
      exact ⟨rfl, rfl, rfl, rfl, .refl s, .refl s, nofun, fun _ hlt => absurd hlt hl,
        fun _ _ _ => ⟨.refl s, rfl, toNat_ofNat_blockCount s.msgLen, rfl, rfl, rfl⟩⟩

/-- Settles O16: a command write ends in one of the ways of a transaction, each with one flag at most. -/
theorem commandWrite : Obligations.CommandWrite := by
  intro d st s
  have heffect := hostEffect_command (t := writeTx 0x004 d st) s rfl (show 4 ≤ 4 ∧ 4 < 8 by decide)
  refine ⟨_, (execWrCmd_eq d st s).trans (exec_eq_next (decodeCmd d) s), heffect.newFlags_le_one,
    fun h => ?_, fun h => ?_, fun h => ?_, fun h0 h1 h2 => ?_⟩
  · rw [h]; exact exec_eq_next .cmdNop s
  · rw [h]; exact exec_eq_next .cmdStart s
  · rw [h]; exact exec_eq_next .cmdClear s
  · rw [(decodeCmd_eq_cmdIllegal_iff d).2 (by bv_omega)]
    exact ⟨exec_eq_next (.cmdIllegal d) s, rfl, rfl⟩

/-- Settles O18: the offset is the operand's, and its four bytes lie below the capacity. -/
theorem writeMessageBytes : Obligations.WriteMessageBytes := by
  intro a d st s o hc halign ha ho
  obtain ⟨hcap, -, -⟩ := (Config.wf_iff _).1 hc
  have hoff : (a - 0x1000).toNat = o := by bv_omega
  refine ⟨_, exec_eq_next (.wrMsg (a - 0x1000) d st) s, ?_⟩
  cases hb : s.busy with
  | true =>
    rw [after_wrMsg_of_busy hb]
    exact ⟨.refl s, .refl s, .refl s, rfl, rfl, rfl, fun _ => ⟨rfl, fun _ => rfl⟩, nofun⟩
  | false =>
    rw [after_wrMsg hb, hoff]
    refine ⟨.refl s, .refl s, .refl s, rfl, rfl, rfl, nofun,
      fun _ => ⟨rfl, fun m hm => ?_, fun x hx => ?_⟩⟩
    · have hin : o ≤ o + m ∧ o + m < o + 4 ∧ o + m < s.cfg.cap := by omega
      simp only [State.setMem_mem, get?_storeLanes, Nat.add_sub_cancel_left, hin, true_and]
      rfl
    · rw [State.setMem_mem, get?_storeLanes, if_neg (by omega)]

/-- Settles O20: an address of a reserved range lies in a reserved word. -/
theorem reservedAddresses : Obligations.ReservedAddresses := by
  refine ⟨fun _ _ _ _ => ⟨rfl, rfl⟩, fun s t is hi h => ?_⟩
  have hres : s.cfg.reserved (alignAddr t.addr).toNat = true := by
    rw [Config.reserved_iff, alignAddr_toNat]
    rw [Config.wf_iff] at h
    omega
  exact ⟨fun ht => step_write_reserved hi ht hres, fun ht => step_read_reserved hi ht hres⟩

/-- Settles O22, field by field. -/
theorem readStatusFields : Obligations.ReadStatusFields := by
  intro s
  obtain ⟨hbusy, hdone, hcmd, herrBusy, hlen⟩ := s.status_bits
  refine ⟨_, rfl, sameState_answer s s.status 0, ?_⟩
  rw [State.setRdata_rdata, hbusy, hdone]
  obtain ⟨h5, h8, h11, h16, h23⟩ := s.status_fields
  refine ⟨s.busy_iff, s.doneOut_iff, hcmd, herrBusy, hlen, h5, h8, h11, h16, h23, ?_⟩
  rw [Bool.and_eq_false_imp, s.busy_iff]
  exact fun ⟨_, hne⟩ => Bool.eq_false_iff.2 (mt s.doneOut_iff.1 hne)

/-- Settles O23: lane `m` is a read of byte `m`, which needs no draw where the byte was written. -/
theorem readMessageBytes : Obligations.ReadMessageBytes := by
  intro a s o ha
  have hoff : (a - 0x1000).toNat = o := by bv_omega
  refine ⟨_, rfl, sameState_answer s _ 4, fun m b hm hb => ?_⟩
  rw [State.draw_rdata, State.setRdata_rdata, hoff]
  exact (lane_loadLanes s.mem o s.draws ⟨m, hm⟩).trans (Memory.read_of_get? _ hb)

/-- Settles O24: the lanes of both windows, and their gate. -/
theorem readDigestWindows : Obligations.ReadDigestWindows := by
  intro j s
  refine ⟨_, _, rfl, sameState_answer s _ 0, rfl, sameState_answer s _ 0, fun hdone m => ?_,
    fun h => ⟨s.gated_of_ne_done h _, s.gated_of_ne_done h _⟩⟩
  rw [State.setRdata_rdata, State.setRdata_rdata, s.gated_of_done hdone, s.gated_of_done hdone,
    show 24 - 8 * m.val = 8 * (3 - m.val) by omega]
  exact ⟨lane_digestWord s.dg j m, lane_digestbWord s.dg j m⟩

/-- Settles O25: each lane is a character of the rendering, and the gate. -/
theorem readHexWindow : Obligations.ReadHexWindow := by
  intro q s
  refine ⟨_, rfl, sameState_answer s _ 0, fun hdone m v hv => ?_, fun h => s.gated_of_ne_done h _⟩
  have hparity : m.val % 2 = 0 ↔ (4 * q.val + m.val) % 2 = 0 := by omega
  rw [State.setRdata_rdata, s.gated_of_done hdone]
  exact (congrArg BitVec.toNat (lane_hexWord s.dg q m)).trans
    (hexChar_toNat _ _ (hv.trans (if_congr hparity rfl rfl)))

/-- Settles O12: NOP answers the state it was given. -/
theorem nopChangesNothing : Obligations.NopChangesNothing := fun _ => rfl

/-- Settles O14: refused while busy, or cleared. -/
theorem clearCommand : Obligations.ClearCommand := by
  intro s
  refine ⟨_, exec_eq_next .cmdClear s, ?_⟩
  cases hb : s.busy with
  | true =>
    rw [after_cmdClear_of_busy hb]
    exact ⟨.refl s, .refl s, .refl s, fun _ => ⟨rfl, rfl, rfl, .refl s⟩, nofun⟩
  | false =>
    rw [after_cmdClear hb]
    exact ⟨.refl s, .refl s, .refl s, nofun, fun _ => ⟨rfl, rfl, rfl, rfl, rfl, rfl, rfl⟩⟩

/-- Settles O15: one flag is set, and every other element is kept. -/
theorem illegalCommand : Obligations.IllegalCommand :=
  fun _ s => ⟨_, rfl, rfl, rfl, rfl, .refl s, .refl s, .refl s, .refl s⟩

/-- Settles O17: refused while busy, or stored. -/
theorem writeMessageLength : Obligations.WriteMessageLength := by
  intro d st s
  refine ⟨_, exec_eq_next (.wrMsgLen d st) s, ?_⟩
  cases hb : s.busy with
  | true =>
    rw [after_wrMsgLen_of_busy hb]
    exact ⟨.refl s, .refl s, .refl s, fun _ => rfl, rfl, rfl, fun _ => ⟨rfl, rfl⟩, nofun⟩
  | false =>
    rw [after_wrMsgLen hb]
    exact ⟨.refl s, .refl s, .refl s, fun _ => rfl, rfl, rfl, nofun, fun _ => ⟨rfl, rfl⟩⟩

/-- Settles O19: each row is an ignored write. -/
theorem readOnlyWritesIgnored : Obligations.ReadOnlyWritesIgnored :=
  fun _ _ _ _ _ _ => ⟨rfl, rfl, rfl, rfl, rfl, rfl, rfl, rfl⟩

/-- Settles O21: each row answers its register on the port and changes nothing else. -/
theorem readRegisters : Obligations.ReadRegisters := by
  intro s
  have answer {i : Instr} (d : Word) (hi : exec i s = .next (s.setRdata d)) :
      ∃ u, exec i s = .next u ∧ u.rdata = d ∧ SameState s u :=
    ⟨_, hi, rfl, sameState_answer s d 0⟩
  exact ⟨answer _ rfl, answer _ rfl, answer _ rfl, answer _ rfl, answer _ rfl, answer _ rfl⟩

end Sys2Proof.Machine

/-! ## The statements of the padder -/

namespace Sys2Proof.Machine

/-- R150: the bit length of a message that a 32-bit length can name does not wrap in 64 bits. -/
theorem bitLength_toNat {n : Nat} (hn : n < 2 ^ 32) : (bitLength n).toNat = 8 * n :=
  (BitVec.toNat_ofNat _ _).trans (Nat.mod_eq_of_lt (by omega))

/-- R152: byte `j` of the length field is the digit of `8 n` at its big-endian place. -/
theorem lengthByte_toNat {n : Nat} (hn : n < 2 ^ 32) (j : Nat) :
    (lengthByte n j).toNat = 8 * n / 2 ^ (56 - 8 * j) % 256 := by
  have hmask (k : Nat) : k &&& 255 = k % 256 := Nat.and_two_pow_sub_one_eq_mod k 8
  simp [lengthByte, bitLength_toNat hn, hmask, Nat.shiftRight_eq_div_pow]

/-- Settles O27: the four cases of `P(i)`; in the last, the length byte as a digit of `8 n`. -/
theorem padBytes : Obligations.PadBytes := by
  intro msg n i x hn hi
  refine ⟨padByte_of_lt msg x, fun h => h ▸ padByte_self msg x, padByte_zero msg x, fun hlen => ?_⟩
  obtain ⟨j, rfl⟩ := Nat.exists_eq_add_of_le hlen
  rw [padByte_lengthByte msg x (by omega), lengthByte_toNat hn,
    show 8 * (64 * blockCount n - 1 - (64 * blockCount n - 8 + j)) = 56 - 8 * j by omega]

/-- Settles O28: the source's padding has the length of `N` blocks, and its bytes are `P(i)` in order. -/
theorem padIsSourcePadding : Obligations.PadIsSourcePadding :=
  fun msg x _ => ⟨Contract.length_pad msg, (Contract.pad_eq_map_padByte msg x).symm⟩

/-- Settles O29: the 9 bytes that padding adds at least, 0x80 and the length field, still fit in the
message's last block as long as `n mod 64` is below 56. -/
theorem spillCondition : Obligations.SpillCondition := by
  intro n
  unfold blockCount
  split
  next hspill => omega
  next hfits => omega

end Sys2Proof.Machine

/-! ## The statements of the scheduler -/

namespace Sys2Proof.Machine

/-! ### Rotations and logical shifts, bit by bit -/

/-- R11: a rotation to the right brings to place `i` the bit `n` places above, counted around the word. -/
theorem getLsbD_rotr (x : Word) {n i : Nat} (hn : n ≤ 32) (hi : i < 32) :
    (rotr x n).getLsbD i = x.getLsbD ((i + n) % 32) := by
  simp only [rotr, BitVec.getLsbD_or, BitVec.getLsbD_ushiftRight, BitVec.getLsbD_shiftLeft]
  by_cases hwrap : i + n < 32
  · rw [Nat.mod_eq_of_lt hwrap, Nat.add_comm n i]
    simp [show i < 32 - n by omega]
  · rw [BitVec.getLsbD_of_ge x (n + i) (by omega), show (i + n) % 32 = i - (32 - n) by omega]
    simp [hi, show 32 - n ≤ i by omega]

/-- R11: a logical shift to the right brings in zeros at the top. -/
theorem getLsbD_logicalShift (x : Word) (n i : Nat) :
    (x >>> n).getLsbD i = (decide (i + n < 32) && x.getLsbD (i + n)) := by
  rw [BitVec.getLsbD_ushiftRight, Nat.add_comm n i]
  by_cases hin : i + n < 32
  · simp [hin]
  · simp [hin, BitVec.getLsbD_of_ge x (i + n) (by omega)]

/-! ### What LOAD and SCHED compute -/

/-- R152: the padded byte of a block of the run, for a message that was written. -/
theorem State.padByteAt_eq_padByte {s : State} {msg : Nat → Byte} (x : Byte)
    (hmsg : ∀ o, o < s.msgLen.toNat → s.mem.get? o = some (msg o)) {i : Nat}
    (hi : i < 64 * s.nblk.toNat) :
    s.padByteAt i = padByte msg s.msgLen.toNat s.nblk.toNat i x :=
  padByte_congr _ _ hi fun h => Memory.read_of_get? _ (hmsg i h)

/-- R174: a word of the block as a number, its first byte the most significant. -/
theorem State.blockWord_toNat (s : State) (i : Nat) :
    (s.blockWord i).toNat = (s.padByteAt (64 * s.kblk.toNat + 4 * i)).toNat * 2 ^ 24
      + (s.padByteAt (64 * s.kblk.toNat + 4 * i + 1)).toNat * 2 ^ 16
      + (s.padByteAt (64 * s.kblk.toNat + 4 * i + 2)).toNat * 2 ^ 8
      + (s.padByteAt (64 * s.kblk.toNat + 4 * i + 3)).toNat :=
  be32_toNat _ _ _ _

/-- R174: the state after LOAD, with the new `W` given word by word. -/
theorem after_uopLoad_eq_setW (s : State) :
    ∃ w : Vector Word 64, after .uopLoad s = ((s.setW w).goTo .sched 16).draw 64
      ∧ ∀ i : Fin 64, w[i] = if i.val < 16 then s.blockWord i.val else s.w[i] :=
  ⟨_, after_uopLoad s, fun i => by simp⟩

/-- R173: the word of SCHED for `STEP` in 16..63, as a sum modulo 2^32. -/
theorem State.nextScheduleWord_toNat (s : State) (hlo : 16 ≤ s.stepIdx.toNat)
    (hhi : s.stepIdx.toNat < 64) :
    s.nextScheduleWord.toNat = ((s.w[s.stepIdx.toNat - 16]).toNat
      + (s0 s.w[s.stepIdx.toNat - 15]).toNat + (s.w[s.stepIdx.toNat - 7]).toNat
      + (s1 s.w[s.stepIdx.toNat - 2]).toNat) % 2 ^ 32 := by
  rw [State.nextScheduleWord, dif_pos ⟨hlo, hhi⟩]
  simp only [BitVec.toNat_add, Nat.mod_add_mod]

/-- R175: SCHED writes `W` in one way; only where it goes next depends on `STEP`. -/
theorem after_uopSched_eq_goTo (s : State) :
    after .uopSched s
      = ((s.setW (s.w.setIfInBounds s.stepIdx.toNat s.nextScheduleWord)).draw 1).goTo
          (if s.stepIdx = 63 then .cinit else s.phase)
          (if s.stepIdx = 63 then 0 else s.stepIdx + 1) := by
  rw [after_uopSched]
  split
  next hlast => rfl
  next hmore => rfl

/-! ### The obligations -/

/-- Settles O30: a word of `W[0..15]` is `BE32` of four bytes of the block, which lie below `64 N`. -/
theorem loadAssemblesBlock : Obligations.LoadAssemblesBlock := by
  intro s msg x hk hmsg
  rw [BitVec.lt_def] at hk
  obtain ⟨w, hload, hw⟩ := after_uopLoad_eq_setW s
  refine ⟨_, exec_eq_next .uopLoad s, ?_⟩
  rw [hload]
  refine ⟨rfl, rfl, fun i hi => ⟨_, fun _ => rfl, ?_⟩, fun i hi => (hw i).trans (if_neg (by omega)),
    rfl, rfl, rfl, rfl, rfl, .refl s, .refl s, .refl s⟩
  have hbyte (m : Nat) (hm : m < 4) := State.padByteAt_eq_padByte x hmsg
    (i := 64 * s.kblk.toNat + 4 * i.val + m) (by omega)
  rw [← hbyte 0 (by omega), ← hbyte 1 (by omega), ← hbyte 2 (by omega), ← hbyte 3 (by omega)]
  exact (congrArg BitVec.toNat ((hw i).trans (if_pos hi))).trans (s.blockWord_toNat i.val)

/-- Settles O31: the word written, the words kept, and the two ways on. -/
theorem schedComputesWord : Obligations.SchedComputesWord := by
  intro s t hlo hhi ht
  subst ht
  have hstep := s.toNat_stepIdx_add_one (by omega)
  refine ⟨_, exec_eq_next .uopSched s, ?_⟩
  rw [after_uopSched_eq_goTo]
  refine ⟨?_, fun i hi => ?_, fun h => ?_, fun h => ?_, rfl, rfl, rfl, rfl, rfl, .refl s, .refl s,
    .refl s⟩
  · rw [← s.nextScheduleWord_toNat hlo hhi]
    simp
  · simp [Ne.symm hi]
  · have hlast := s.stepIdx_eq_63_iff.2 h
    exact ⟨if_pos hlast, if_pos hlast⟩
  · have hmore := mt s.stepIdx_eq_63_iff.1 h
    exact ⟨(congrArg BitVec.toNat (if_neg hmore)).trans (hstep hmore).1, if_neg hmore⟩

/-- Settles O32: the bits of an exclusive or, with the rotations and the shifts bit by bit. -/
theorem sigmaFunctionBits : Obligations.SigmaFunctionBits := by
  intro x i hi
  have hrot (n : Nat) (hn : n ≤ 32) := getLsbD_rotr x hn hi
  simp only [s0, s1, bigS1, bigS0, BitVec.getLsbD_xor, getLsbD_logicalShift, hrot, Nat.reduceLeDiff,
    and_self]

end Sys2Proof.Machine

/-! ## The statements of the compressor -/

namespace Sys2Proof.Machine

/-! ### The choice and the majority, bit by bit -/

/-- R193: `ch` takes a bit from its second word or from its third, as its first word's bit says. -/
theorem getLsbD_ch (e f g : Word) {i : Nat} (hi : i < 32) :
    (ch e f g).getLsbD i = if e.getLsbD i then f.getLsbD i else g.getLsbD i := by
  simp only [ch, BitVec.getLsbD_xor, BitVec.getLsbD_and, BitVec.getLsbD_not, hi, decide_true,
    Bool.true_and]
  cases e.getLsbD i with
  | true => simp
  | false => simp

/-- R195: the source's three pairwise products sum to the majority; the truth table of three bits. -/
theorem xor_of_products_iff_two_le (a b c : Bool) :
    ((a && b) ^^ (a && c) ^^ (b && c)) = true ↔ 2 ≤ a.toNat + b.toNat + c.toNat := by
  revert a b c
  decide

/-! ### The table of the round constants -/

/-- R191: the list is that of the primes below 312, in order. -/
theorem kPrimes_eq_filter_prime : kPrimes = (List.range 312).filter (·.Prime) := by decide +kernel

theorem mem_kPrimes_iff {m : Nat} : m ∈ kPrimes ↔ m < 312 ∧ m.Prime := by
  rw [kPrimes_eq_filter_prime, List.mem_filter, List.mem_range, decide_eq_true_iff]

theorem pairwise_lt_kPrimes : kPrimes.Pairwise (· < ·) := by
  rw [kPrimes_eq_filter_prime]
  exact List.pairwise_lt_range.filter _

/-- R191: the root of `p × 2^96` has at most the 35 bits that the search runs over, as `p` is below 2^9. -/
theorem roundConstOf_spec {p : Nat} (hp : p < 2 ^ 9) :
    ∃ c, c ^ 3 ≤ p * 2 ^ 96 ∧ p * 2 ^ 96 < (c + 1) ^ 3 ∧ (roundConstOf p).toNat = c % 2 ^ 32 := by
  obtain ⟨hlo, hhi⟩ := cubeRootFrom_spec (p * 2 ^ 96) 35 0 (by simp) (by omega)
  exact ⟨_, hlo, hhi, BitVec.toNat_ofNat _ _⟩

/-! ### What ROUND computes -/

/-- R196: `t1` as a sum modulo 2^32. -/
theorem roundT1_toNat (v : Vector Word 8) (k w : Word) :
    (roundT1 v k w).toNat = ((v[7]).toNat + (bigS1 v[4]).toNat + (ch v[4] v[5] v[6]).toNat
      + k.toNat + w.toNat) % 2 ^ 32 := by
  simp only [roundT1, BitVec.toNat_add, Nat.mod_add_mod]

/-- R196: `t2` as a sum modulo 2^32. -/
theorem roundT2_toNat (v : Vector Word 8) :
    (roundT2 v).toNat = ((bigS0 v[0]).toNat + (maj v[0] v[1] v[2]).toNat) % 2 ^ 32 :=
  BitVec.toNat_add _ _

/-- R198: ROUND writes `A` in one way; only where it goes next depends on `STEP`. -/
theorem after_uopRound_eq_goTo (s : State) :
    after .uopRound s
      = ((s.setA (roundFn s.a s.roundConst s.roundWord)).draw 2).goTo
          (if s.stepIdx = 63 then .feed else s.phase)
          (if s.stepIdx = 63 then 0 else s.stepIdx + 1) := by
  rw [after_uopRound]
  split
  next hlast => rfl
  next hmore => rfl

/-! ### The obligations -/

/-- Settles O33: the choice by its first bit, the majority by its truth table. -/
theorem chooseAndMajorityBits : Obligations.ChooseAndMajorityBits := by
  intro x y z i hi
  refine ⟨getLsbD_ch x y z hi, ?_⟩
  simp only [maj, BitVec.getLsbD_xor, BitVec.getLsbD_and]
  exact xor_of_products_iff_two_le _ _ _

/-- Settles O34: the list holds the primes in order, and the search from each finds its exact root. -/
theorem roundConstantsAreCubeRoots : Obligations.RoundConstantsAreCubeRoots := by
  refine ⟨kPrimes_length, pairwise_lt_kPrimes,
    fun m hm => mem_kPrimes_iff.trans (and_iff_right hm), fun i => ?_⟩
  have hi : i.val < kPrimes.length := i.isLt.trans_eq kPrimes_length.symm
  obtain ⟨hlt, -⟩ := mem_kPrimes_iff.1 (List.getElem_mem hi)
  obtain ⟨c, hlo, hhi, hc⟩ := roundConstOf_spec (p := kPrimes[i.val]) (by omega)
  exact ⟨_, c, List.getElem?_eq_getElem hi, hlo, hhi,
    (congrArg BitVec.toNat (kTable_getElem i.val i.isLt)).trans hc⟩

/-- Settles O36: CINIT writes `A`, `PHASE` and `STEP`, and no other field. -/
theorem cinitCopiesHashState : Obligations.CinitCopiesHashState :=
  fun s => ⟨_, exec_eq_next .uopCinit s, rfl, rfl, rfl, rfl, rfl, rfl, rfl, rfl, .refl s, .refl s,
    .refl s⟩

/-- Settles O37: `t1` and `t2` wrap before they are added, which the sums modulo 2^32 do not see. -/
theorem roundUpdatesWorkingRegisters : Obligations.RoundUpdatesWorkingRegisters := by
  intro s r hr t1 t2 ht h1 h2
  subst ht
  have hk : s.roundConst = kTable[s.stepIdx.toNat] := dif_pos hr
  have hw : s.roundWord = s.w[s.stepIdx.toNat] := dif_pos hr
  have hstep := s.toNat_stepIdx_add_one (by omega)
  have ht1 := roundT1_toNat s.a kTable[s.stepIdx.toNat] s.w[s.stepIdx.toNat]
  have ht2 := roundT2_toNat s.a
  rw [← h1] at ht1
  rw [← h2] at ht2
  refine ⟨_, exec_eq_next .uopRound s, ?_⟩
  rw [after_uopRound_eq_goTo, hk, hw]
  refine ⟨?_, rfl, rfl, rfl, ?_, rfl, rfl, rfl, fun h => ?_, fun h => ?_, rfl, rfl, rfl, rfl, rfl,
    .refl s, .refl s, .refl s⟩
  · exact (BitVec.toNat_add _ _).trans (by rw [ht1, ht2, ← Nat.add_mod])
  · exact (BitVec.toNat_add _ _).trans (by rw [ht1, Nat.add_mod_mod])
  · have hlast := s.stepIdx_eq_63_iff.2 h
    exact ⟨if_pos hlast, if_pos hlast⟩
  · have hmore := mt s.stepIdx_eq_63_iff.1 h
    exact ⟨(congrArg BitVec.toNat (if_neg hmore)).trans (hstep hmore).1, if_neg hmore⟩

/-- Settles O39: word by word the sum modulo 2^32, and the two ways on by the old `KBLK`. -/
theorem feedAddsWorkingRegisters : Obligations.FeedAddsWorkingRegisters := by
  intro s
  refine ⟨_, exec_eq_next .uopFeed s, fun j => ?_, rfl, rfl, rfl, fun h => if_pos h,
    fun h => if_neg h, rfl, rfl, rfl, .refl s, .refl s, .refl s⟩
  rw [after_uopFeed]
  simp

end Sys2Proof.Machine

/-! ## The statements of the digest serializer -/

namespace Sys2Proof.Machine

/-! ### The hex rendering as numbers -/

/-- Nibble `i` of the digest as a number, the high one of each byte first (R221). -/
def nibble (dg : Vector Byte 32) (i : Fin 64) : Nat :=
  if i.val % 2 = 0 then dg[i.val / 2].toNat / 16 else dg[i.val / 2].toNat % 16

theorem nibble_lt (dg : Vector Byte 32) (i : Fin 64) : nibble dg i < 16 := by
  have := dg[i.val / 2].isLt
  unfold nibble
  split <;> omega

theorem byte_eq_nibbles (dg : Vector Byte 32) {i : Nat} (hi : i < 32) :
    dg[i].toNat = 16 * nibble dg ⟨2 * i, by omega⟩ + nibble dg ⟨2 * i + 1, by omega⟩ := by
  have hhigh : nibble dg ⟨2 * i, by omega⟩ = dg[i].toNat / 16 := by simp [nibble]
  have hlow : nibble dg ⟨2 * i + 1, by omega⟩ = dg[i].toNat % 16 := by
    simp [nibble, Nat.mul_add_div]
  omega

theorem hexChar_toNat_nibble (dg : Vector Byte 32) (i : Fin 64) :
    (hexChar dg i).toNat
      = if nibble dg i ≤ 9 then 0x30 + nibble dg i else 0x61 + (nibble dg i - 10) :=
  hexChar_toNat dg i rfl

/-- R223: each character is a digit or one of the letters `a` to `f`. -/
theorem hexChar_range (dg : Vector Byte 32) (i : Fin 64) :
    (0x30 ≤ (hexChar dg i).toNat ∧ (hexChar dg i).toNat ≤ 0x39)
      ∨ (0x61 ≤ (hexChar dg i).toNat ∧ (hexChar dg i).toNat ≤ 0x66) := by
  have hlt := nibble_lt dg i
  rw [hexChar_toNat_nibble]
  split
  next hdigit => exact .inl (by omega)
  next hletter => exact .inr (by omega)

/-- R221: the codes of the digits lie below those of the letters, so a character tells its nibble. -/
theorem nibble_eq_of_hexChar_eq {dg dg' : Vector Byte 32} {i : Fin 64}
    (h : hexChar dg i = hexChar dg' i) : nibble dg i = nibble dg' i := by
  have hcode := congrArg BitVec.toNat h
  rw [hexChar_toNat_nibble, hexChar_toNat_nibble] at hcode
  split at hcode <;> split at hcode <;> omega

theorem eq_of_nibble_eq {dg dg' : Vector Byte 32} (h : ∀ i, nibble dg i = nibble dg' i) : dg = dg' :=
  Vector.ext fun i hi => BitVec.eq_of_toNat_eq <| by
    rw [byte_eq_nibbles dg hi, byte_eq_nibbles dg' hi, h, h]

/-! ### What FINAL serializes, and what the windows then return -/

/-- R220: byte `m` of word `j` as a digit of that word in base 256. -/
theorem serialize_toNat (h : Vector Word 8) (j : Fin 8) (m : Fin 4) :
    (serialize h)[4 * j.val + m.val].toNat = h[j].toNat / 2 ^ (24 - 8 * m.val) % 256 := by
  have hword : (4 * j.val + m.val) / 4 = j.val := by omega
  have hbyte : (4 * j.val + m.val) % 4 = m.val := by omega
  simp only [serialize_getElem, beByte_toNat, hword, hbyte, Fin.getElem_fin]

/-- R135 to R137: in DONE the gate of the three digest windows is open. -/
theorem exec_windows_of_done {s : State} (hdone : s.phase = .done) (j q : Fin 8) (x : Fin 16) :
    exec (.rdDigest j) s = .next (s.setRdata (digestWord s.dg j))
      ∧ exec (.rdDigestb q) s = .next (s.setRdata (digestbWord s.dg q))
      ∧ exec (.rdHex x) s = .next (s.setRdata (hexWord s.dg x)) := by
  have hopen (v : Word) : (.next (s.setRdata (s.gated v)) : Host.Outcome State Fault Refusal)
      = .next (s.setRdata v) := by rw [s.gated_of_done hdone]
  exact ⟨hopen _, hopen _, hopen _⟩

/-! ### The obligations -/

/-- Settles O26: a character tells its nibble, and the nibbles of two digests with one rendering make
up the same bytes. -/
theorem hexRenderingShape : Obligations.HexRenderingShape := by
  refine fun dg => ⟨by simp [Contract.hex], fun c hc => ?_, fun dg' heq => ?_⟩
  · obtain ⟨i, -, rfl⟩ := List.mem_map.1 hc
    exact hexChar_range dg i
  · have hchar := List.map_inj_left.1 heq
    exact eq_of_nibble_eq fun i => nibble_eq_of_hexChar_eq (hchar i (List.mem_finRange i))

/-- Settles O40: the digest bytes as numbers, and DONE, in which `done` is 1 and the windows open. -/
theorem finalSerializesHashState : Obligations.FinalSerializesHashState := by
  intro s
  have hbytes := serialize_toNat s.h
  refine ⟨_, exec_eq_next .uopFinal s, ?_⟩
  rw [after_uopFinal]
  -- the other fields do not depend on what the digest is
  generalize serialize s.h = dg at hbytes ⊢
  have hphase : ((s.setDg dg).goTo .done 0).phase = .done := rfl
  have hdone := (State.doneOut_iff _).2 hphase
  obtain ⟨-, hstatus, -⟩ := ((s.setDg dg).goTo .done 0).status_bits
  exact ⟨hbytes, hphase, rfl, hdone, hstatus.trans hdone, exec_windows_of_done hphase, rfl, rfl, rfl,
    rfl, rfl, .refl s, .refl s, .refl s⟩

end Sys2Proof.Machine

/-! ## The next event and what it writes -/

namespace Sys2Proof.Machine

theorem State.nextWrite_of_coreNext {s : State} (h : s.coreNext = true) : s.nextWrite = none := by
  match hi : s.inputs with
  | [] | .core :: _ => simp [State.nextWrite, hi]
  | .bus _ :: _ | .reset :: _ => simp [State.coreNext, hi, Input.isCore] at h

theorem State.resetNext_of_coreNext {s : State} (h : s.coreNext = true) : s.resetNext = false := by
  match hi : s.inputs with
  | [] | .core :: _ => simp [State.resetNext, hi, Input.isReset]
  | .bus _ :: _ | .reset :: _ => simp [State.coreNext, hi, Input.isCore] at h

theorem State.not_commandNext_of_nextWrite_none {s : State} (h : s.nextWrite = none) (d : Word) :
    ¬ s.commandNext d := by
  rintro ⟨a, ha, -⟩
  simp [h] at ha

theorem State.not_guardedNext_of_nextWrite_none {s : State} (h : s.nextWrite = none) :
    ¬ s.guardedNext := by
  rintro (hstart | hclear | ⟨a, d, ha, -⟩)
  · exact not_commandNext_of_nextWrite_none h _ hstart
  · exact not_commandNext_of_nextWrite_none h _ hclear
  · simp [h] at ha

section
variable {s : State} {t : BusTx} {is : List Input} (hi : s.inputs = .bus t :: is)
include hi

theorem State.coreNext_of_bus : s.coreNext = false := by simp [State.coreNext, hi, Input.isCore]

theorem State.resetNext_of_bus : s.resetNext = false := by simp [State.resetNext, hi, Input.isReset]

theorem State.nextWrite_of_read (ht : t.write = false) : s.nextWrite = none := by
  simp [State.nextWrite, hi, ht]

theorem State.nextWrite_of_write (ht : t.write = true) :
    s.nextWrite = some (t.addr.toNat, t.wdata) := by
  simp [State.nextWrite, hi, ht]

end

/-! ### A write by its address and its word -/

section
variable {s : State} {a : Nat} {w : Word} (hn : s.nextWrite = some (a, w))
include hn

theorem State.commandNext_iff (d : Word) : s.commandNext d ↔ (0x004 ≤ a ∧ a < 0x008) ∧ w = d := by
  simp only [State.commandNext, hn, Option.some.injEq, Prod.mk.injEq]
  constructor
  · rintro ⟨_, ⟨rfl, rfl⟩, ha⟩
    exact ⟨ha, rfl⟩
  · rintro ⟨ha, rfl⟩
    exact ⟨a, ⟨rfl, rfl⟩, ha⟩

theorem State.guardedNext_iff :
    s.guardedNext ↔ ((0x004 ≤ a ∧ a < 0x008) ∧ (w = 0x00000001 ∨ w = 0x00000002))
      ∨ (0x00C ≤ a ∧ a < 0x010) ∨ (0x1000 ≤ a ∧ a < 0x1000 + s.cfg.cap) := by
  rw [State.guardedNext, State.commandNext_iff hn, State.commandNext_iff hn, and_or_left, or_assoc]
  refine or_congr_right (or_congr_right ⟨?_, fun ha => ⟨a, w, hn, ha⟩⟩)
  rintro ⟨_, _, ha, hrange⟩
  rw [hn] at ha
  cases ha
  exact hrange

end

end Sys2Proof.Machine

/-! ## When a flag is set and when the flags are cleared -/

namespace Sys2Proof.Machine

/-- R20, R240: a micro-op sets no flag, whatever phase the state is in. -/
theorem sameFlags_after_of_decodeUop {i : Instr} {p : BitVec 3} (h : decodeUop p = some i) (s : State) :
    SameFlags s (after i s) := by
  obtain ⟨q, rfl⟩ : ∃ q : Phase, q.code = p := ⟨_, Phase.code_ofCode p⟩
  cases q with
  | idle | done => simp at h
  | load | sched | cinit | round | feed | final =>
    cases h
    simp [SameFlags, after_uopLoad, after_uopSched_eq_goTo, after_uopCinit, after_uopRound_eq_goTo,
      after_uopFeed, after_uopFinal]

theorem sameFlags_coreStep (s : State) : SameFlags s (coreStep s) := by
  obtain ⟨-, -, -, -, -, -, hcmd, hbusy, hlen⟩ := coreStep_frame s
  exact ⟨hcmd, hbusy, hlen⟩

/-- R244: the next step clears the flags: a reset, or a CLEAR that is accepted. -/
def State.clearsNext (s : State) : Prop :=
  s.resetNext = true ∨ (s.busy = false ∧ s.commandNext 0x00000002)

/-- R241: the one cause of each flag. -/
def State.raisesNext (s : State) : ErrFlag → Prop
  | .cmd => ∃ d, s.commandNext d ∧ 3 ≤ d.toNat
  | .busy => s.busy = true ∧ s.guardedNext
  | .len => s.busy = false ∧ s.commandNext 0x00000001 ∧ s.cfg.cap < s.msgLen.toNat

/-- R241, R244: the flags of `u` are those of `s` with the causes of the next step taken in. -/
def FlagsFollow (s u : State) : Prop :=
  (s.clearsNext → ∀ f, u.flag f = false)
    ∧ (¬ s.clearsNext → ∀ f, u.flag f = true ↔ s.flag f = true ∨ s.raisesNext f)

theorem SameFlags.flag_eq {s u : State} (h : SameFlags s u) (f : ErrFlag) : u.flag f = s.flag f := by
  obtain ⟨hcmd, hbusy, hlen⟩ := h
  cases f <;> assumption

theorem State.flag_setFlag_iff (s : State) (f g : ErrFlag) :
    (s.setFlag f).flag g = true ↔ s.flag g = true ∨ f = g := by
  cases g <;> simp [State.flag]

/-! ### The four ways of a step -/

section
variable {s u : State}

theorem FlagsFollow.cleared (hc : s.clearsNext) (hu : ∀ f, u.flag f = false) : FlagsFollow s u :=
  ⟨fun _ => hu, fun h => absurd hc h⟩

theorem FlagsFollow.kept (hc : ¬ s.clearsNext) (hr : ∀ f, ¬ s.raisesNext f) (hu : SameFlags s u) :
    FlagsFollow s u :=
  ⟨fun h => absurd h hc, fun _ f => by rw [hu.flag_eq f, or_iff_left (hr f)]⟩

theorem FlagsFollow.raised {f : ErrFlag} (hc : ¬ s.clearsNext) (hr : ∀ g, s.raisesNext g ↔ f = g)
    (hu : SameFlags (s.setFlag f) u) : FlagsFollow s u :=
  ⟨fun h => absurd h hc, fun _ g => by rw [hu.flag_eq g, s.flag_setFlag_iff, hr]⟩

/-- A step that neither resets nor carries out a write has no cause in it. -/
theorem FlagsFollow.of_no_write (hreset : s.resetNext = false) (hn : s.nextWrite = none)
    (hu : SameFlags s u) : FlagsFollow s u := by
  have hcmd := State.not_commandNext_of_nextWrite_none hn
  refine .kept (by simp [State.clearsNext, hreset, hcmd]) (fun f => ?_) hu
  cases f with
  | cmd => rintro ⟨d, hd, -⟩; exact hcmd d hd
  | busy => exact fun h => State.not_guardedNext_of_nextWrite_none hn h.2
  | len => exact fun h => hcmd _ h.2.1

end

/-! ### Writes -/

section
variable {s : State} {a : Nat} {w : Word} (hreset : s.resetNext = false)
  (hn : s.nextWrite = some (a, w))
include hreset hn

/-- R122-R125, R141: a command write, by its word. -/
theorem flagsFollow_command (ha : 0x004 ≤ a ∧ a < 0x008) (is : List Input) :
    FlagsFollow s (after (decodeCmd w) (s.setInputs is)) := by
  have hcmd (d : Word) : s.commandNext d ↔ w = d := by
    rw [State.commandNext_iff hn, and_iff_right ha]
  have hguard : s.guardedNext ↔ w = 1 ∨ w = 2 := by
    rw [State.guardedNext_iff hn, and_iff_right ha, or_iff_left (by omega)]
  have hclear : s.clearsNext ↔ s.busy = false ∧ w = 2 := by simp [State.clearsNext, hreset, hcmd]
  have hraise (f : ErrFlag) : s.raisesNext f ↔
      match f with
      | .cmd => 3 ≤ w.toNat
      | .busy => s.busy = true ∧ (w = 1 ∨ w = 2)
      | .len => s.busy = false ∧ w = 1 ∧ s.cfg.cap < s.msgLen.toNat := by
    cases f <;> simp [State.raisesNext, hcmd, hguard]
  rw [after_command, State.setInputs_busy, State.setInputs_cfg, State.setInputs_msgLen]
  split_ifs with hnop hstart hb hlen hcl hb
  · exact .kept (by simp [hclear, hnop]) (fun f => by cases f <;> simp [hraise, hnop]) (.refl s)
  · exact .raised (f := .busy) (by simp [hclear, hb])
      (fun f => by cases f <;> simp [hraise, hstart, hb]) (.refl _)
  · exact .raised (f := .len) (by simp [hclear, hstart])
      (fun f => by cases f <;> simp [hraise, hstart, hb, hlen]) (.refl _)
  · exact .kept (by simp [hclear, hstart])
      (fun f => by cases f <;> simp [hraise, hstart, hb, hlen]) (.refl s)
  · exact .raised (f := .busy) (by simp [hclear, hb])
      (fun f => by cases f <;> simp [hraise, hcl, hb]) (.refl _)
  · exact .cleared (hclear.2 ⟨Bool.eq_false_iff.2 hb, hcl⟩) (fun f => by cases f <;> rfl)
  · have hillegal : 3 ≤ w.toNat := by bv_omega
    refine .raised (f := .cmd) (fun h => hcl (hclear.1 h).2) (fun f => ?_) (.refl _)
    cases f <;>
      simp only [hraise, hillegal, hstart, hcl, or_self, and_false, false_and, reduceCtorEq]

/-- R126, R127: a write of `MSG_LEN` or of the message sets `ERR_BUSY` while busy, and no other flag. -/
theorem flagsFollow_guarded
    (ha : (0x00C ≤ a ∧ a < 0x010) ∨ (0x1000 ≤ a ∧ a < 0x1000 + s.cfg.cap)) {u : State}
    (hbusy : s.busy = true → SameFlags (s.setFlag .busy) u) (hfree : s.busy = false → SameFlags s u) :
    FlagsFollow s u := by
  have hcmd (d : Word) : ¬ s.commandNext d := by
    rw [State.commandNext_iff hn]
    omega
  have hguard : s.guardedNext := (State.guardedNext_iff hn).2 (.inr ha)
  have hclear : ¬ s.clearsNext := by simp [State.clearsNext, hreset, hcmd]
  cases hb : s.busy with
  | true =>
    exact .raised hclear (fun f => by cases f <;> simp [State.raisesNext, hcmd, hguard, hb]) (hbusy hb)
  | false =>
    exact .kept hclear (fun f => by cases f <;> simp [State.raisesNext, hcmd, hb]) (hfree hb)

/-- R139, R140: a write that the map ignores sets no flag. -/
theorem flagsFollow_ignored (ha : ¬ (0x004 ≤ a ∧ a < 0x008)) (hl : ¬ (0x00C ≤ a ∧ a < 0x010))
    (hw : ¬ (0x1000 ≤ a ∧ a < 0x1000 + s.cfg.cap)) {u : State} (hu : SameFlags s u) :
    FlagsFollow s u := by
  have hcmd (d : Word) : ¬ s.commandNext d := fun h => ha ((State.commandNext_iff hn d).1 h).1
  have hguard : ¬ s.guardedNext := by simp [State.guardedNext_iff hn, ha, hl, hw]
  exact .kept (by simp [State.clearsNext, hreset, hcmd])
    (fun f => by cases f <;> simp [State.raisesNext, hcmd, hguard]) hu

end

/-- R8, R64: the memory is whole words, so a byte address lies in the window with its word. -/
theorem inWindow_alignAddr_iff {c : Config} (hc : c.wf = true) (a : Word) :
    c.inWindow (alignAddr a) = true ↔ 0x1000 ≤ a.toNat ∧ a.toNat < 0x1000 + c.cap := by
  obtain ⟨hcap, -, -⟩ := (Config.wf_iff c).1 hc
  rw [Config.inWindow_iff, alignAddr_toNat]
  omega

/-- R241, R244: a transaction. -/
theorem flagsFollow_bus {s : State} {t : BusTx} {is : List Input} (hc : s.cfg.wf = true)
    (hi : s.inputs = .bus t :: is) :
    FlagsFollow s (after (decodeBus s.cfg t) (s.setInputs is)) := by
  have hreset := State.resetNext_of_bus hi
  cases ht : t.write with
  | false =>
    obtain ⟨d, n, h⟩ := after_read s.cfg t (s.setInputs is) ht
    rw [h]
    exact .of_no_write hreset (State.nextWrite_of_read hi ht) (.refl s)
  | true =>
    have hn := State.nextWrite_of_write hi ht
    have hwin := inWindow_alignAddr_iff hc t.addr
    rw [after_write s.cfg t _ ht]
    split_ifs with hcmd hlen hb hin hb
    · exact flagsFollow_command hreset hn hcmd is
    · exact flagsFollow_guarded hreset hn (.inl hlen) (fun _ => .refl _) (fun h => absurd hb (by simp [h]))
    · exact flagsFollow_guarded hreset hn (.inl hlen) (fun h => absurd h hb) (fun _ => .refl s)
    · exact flagsFollow_guarded hreset hn (.inr (hwin.1 hin)) (fun _ => .refl _)
        (fun h => absurd hb (by simp [h]))
    · exact flagsFollow_guarded hreset hn (.inr (hwin.1 hin)) (fun h => absurd h hb) (fun _ => .refl s)
    · exact flagsFollow_ignored hreset hn hcmd hlen (mt hwin.2 hin) (.refl s)

/-- R241, R244: every step. -/
theorem flagsFollow_step {s u : State} (hc : s.cfg.wf = true) (hu : step s = .next u) :
    FlagsFollow s u := by
  rcases step_cases s u hu with ⟨hcore, rfl⟩ | ⟨t, is, hi, rfl⟩ | ⟨is, hi, rfl⟩
  · exact .of_no_write (State.resetNext_of_coreNext hcore) (State.nextWrite_of_coreNext hcore)
      (sameFlags_coreStep (s.setInputs s.inputs.tail))
  · exact flagsFollow_bus hc hi
  · exact .cleared (.inl (by simp [State.resetNext, hi, Input.isReset])) fun f => by cases f <;> rfl

end Sys2Proof.Machine

/-! ## When `done` rises and falls -/

namespace Sys2Proof.Machine

/-- R222, R245: a turn of the core ends in DONE from FINAL, or rests there. -/
theorem coreStep_phase_eq_done_iff (s : State) :
    (coreStep s).phase = .done ↔ s.phase = .done ∨ s.phase = .final := by
  rw [coreStep_eq]
  cases hp : s.phase with
  | idle | done | load | cinit | final => simp [hp, after_uopLoad, after_uopCinit, after_uopFinal]
  | sched | round =>
    simp only [after_uopSched, after_uopRound]
    split <;> simp [hp]
  | feed =>
    simp only [after_uopFeed, State.goTo_phase]
    split <;> simp

/-- R245: a command other than START and CLEAR keeps DONE; those two leave it. -/
theorem after_command_phase_eq_done_iff (d : Word) (s : State) :
    (after (decodeCmd d) s).phase = .done ↔ s.phase = .done ∧ ¬ (d = 1 ∨ d = 2) := by
  have hbusy (h : s.busy = true) : s.phase ≠ .done := (s.busy_iff.1 h).2
  rw [after_command]
  split_ifs with hnop hstart hb hlen hcl hb
  · simp [hnop]
  · simp [hstart, hbusy hb]
  · simp [hstart]
  · simp [hstart]
  · simp [hcl, hbusy hb]
  · simp [hcl]
  · rw [State.setFlag_phase, and_iff_left (not_or.2 ⟨hstart, hcl⟩)]

/-- R245: of the transactions, START and CLEAR alone leave DONE, and none enters it. -/
theorem after_bus_phase_eq_done_iff {s : State} {t : BusTx} {is : List Input}
    (hi : s.inputs = .bus t :: is) :
    (after (decodeBus s.cfg t) (s.setInputs is)).phase = .done ↔
      s.phase = .done ∧ ¬ (s.commandNext 0x00000001 ∨ s.commandNext 0x00000002) := by
  cases ht : t.write with
  | false =>
    have hcmd := State.not_commandNext_of_nextWrite_none (State.nextWrite_of_read hi ht)
    obtain ⟨d, n, h⟩ := after_read s.cfg t (s.setInputs is) ht
    simp [h, hcmd]
  | true =>
    have hcmd := State.commandNext_iff (State.nextWrite_of_write hi ht)
    simp only [hcmd, ← and_or_left]
    rw [after_write s.cfg t _ ht]
    split_ifs with ha
    · rw [after_command_phase_eq_done_iff, and_iff_right ha]
      rfl
    all_goals simp [ha]

/-- R46, R245: `done` after a step. -/
theorem step_doneOut_iff {s u : State} (hu : step s = .next u) :
    u.doneOut = true ↔
      (s.doneOut = true
          ∧ ¬ (s.resetNext = true ∨ s.commandNext 0x00000001 ∨ s.commandNext 0x00000002))
        ∨ (s.coreNext = true ∧ s.phase = .final) := by
  rw [State.doneOut_iff, State.doneOut_iff]
  rcases step_cases s u hu with ⟨hcore, rfl⟩ | ⟨t, is, hi, rfl⟩ | ⟨is, hi, rfl⟩
  · have hcmd := State.not_commandNext_of_nextWrite_none (State.nextWrite_of_coreNext hcore)
    simp [coreStep_phase_eq_done_iff, State.resetNext_of_coreNext hcore, hcmd, hcore]
  · simp [after_bus_phase_eq_done_iff hi, State.resetNext_of_bus hi, State.coreNext_of_bus hi]
  · simp [State.resetNext, State.coreNext, hi, Input.isReset, Input.isCore]

end Sys2Proof.Machine

/-! ## The statements about exceptions: completion, flags and `done` -/

namespace Sys2Proof.Machine

/-- Settles O10: every instruction answers, and so does every event's step. -/
theorem everyStepCompletes : Obligations.EveryStepCompletes := by
  refine ⟨fun s => ?_, fun i s => ⟨_, exec_eq_next i s⟩, fun i s u p hp hu => ?_⟩
  · match hi : s.inputs with
    | [] => exact ⟨_, step_nil s hi⟩
    | .core :: is => exact ⟨_, step_core s is hi⟩
    | .bus t :: is => exact ⟨_, step_bus s t is hi⟩
    | .reset :: is => exact ⟨_, step_reset s is hi⟩
  · rw [(exec_next_iff i s u).1 hu]
    exact sameFlags_after_of_decodeUop hp s

/-- Settles O47: flag by flag what `FlagsFollow` says of every step. -/
theorem flagCauses : Obligations.FlagCauses := by
  intro s u hc hu
  obtain ⟨hclear, hraise⟩ := flagsFollow_step hc hu
  exact ⟨fun h => ⟨hclear h .cmd, hclear h .busy, hclear h .len⟩,
    fun h => ⟨hraise h .cmd, hraise h .busy, hraise h .len⟩⟩

/-- Settles O48: a turn of the core sets no flag, a transaction at most one, and a reset clears them. -/
theorem oneFlagPerStep : Obligations.OneFlagPerStep := by
  intro s u hu
  rcases step_cases s u hu with ⟨-, rfl⟩ | ⟨t, is, hi, rfl⟩ | ⟨is, hi, rfl⟩
  · have hsame : SameFlags s _ := sameFlags_coreStep (s.setInputs s.inputs.tail)
    exact ⟨(newFlags_of_sameFlags hsame).trans_le (Nat.zero_le 1), fun _ => hsame⟩
  · exact ⟨(hostEffect_bus s.cfg t (s.setInputs is)).newFlags_le_one,
      fun h => by simp [State.coreNext_of_bus hi] at h⟩
  · exact ⟨by simp [newFlags], fun h => by simp [State.coreNext, hi, Input.isCore] at h⟩

/-- Settles O50: from what `done` is after a step; FINAL does not run in DONE. -/
theorem doneRisesAndFalls : Obligations.DoneRisesAndFalls := by
  intro s u hu
  have hdone := step_doneOut_iff hu
  have hfinal (h : s.phase = .final) : s.doneOut = false := by simp [State.doneOut, h]
  refine ⟨?_, fun hs => ?_⟩
  · rw [hdone]
    exact ⟨fun ⟨hs, h⟩ => h.resolve_left fun h => by simp [hs] at h,
      fun h => ⟨hfinal h.2, .inr h⟩⟩
  · have hnot : s.phase ≠ .final := fun h => by simp [hfinal h] at hs
    rw [← Bool.not_eq_true, hdone]
    simp only [hs, hnot, true_and, and_false, or_false, not_not]

end Sys2Proof.Machine

/-! ## What the progress of a run depends on -/

namespace Sys2Proof.Machine

/-- What R280 lets a run's progress depend on: the sequencer, the block counters, `MSG_LEN`, the parameter and
the events. The rest of the state is blanked. -/
def State.progress (s : State) : State :=
  { State.reset with
    cfg := s.cfg
    phase := s.phase
    stepIdx := s.stepIdx
    kblk := s.kblk
    nblk := s.nblk
    msgLen := s.msgLen
    inputs := s.inputs }

theorem progress_eq_iff {s t : State} :
    t.progress = s.progress ↔ SameSequencer s t ∧ SameSurroundings s t ∧ t.msgLen = s.msgLen := by
  simp only [State.progress, State.mk.injEq, SameSequencer, SameSurroundings]
  tauto

/-! ### The progress under each update -/

@[simp] theorem State.progress_phase (s : State) : s.progress.phase = s.phase := rfl
@[simp] theorem State.progress_stepIdx (s : State) : s.progress.stepIdx = s.stepIdx := rfl
@[simp] theorem State.progress_kblk (s : State) : s.progress.kblk = s.kblk := rfl
@[simp] theorem State.progress_nblk (s : State) : s.progress.nblk = s.nblk := rfl

@[simp] theorem State.progress_setH (s : State) (v : Vector Word 8) : (s.setH v).progress = s.progress := rfl
@[simp] theorem State.progress_setA (s : State) (v : Vector Word 8) : (s.setA v).progress = s.progress := rfl
@[simp] theorem State.progress_setW (s : State) (v : Vector Word 64) : (s.setW v).progress = s.progress := rfl
@[simp] theorem State.progress_setDg (s : State) (v : Vector Byte 32) : (s.setDg v).progress = s.progress := rfl
@[simp] theorem State.progress_draw (s : State) (n : Nat) : (s.draw n).progress = s.progress := rfl

@[simp] theorem State.progress_goTo (s : State) (p : Phase) (t : BitVec 7) :
    (s.goTo p t).progress = s.progress.goTo p t := rfl

@[simp] theorem State.progress_setBlocks (s : State) (k n : Word) :
    (s.setBlocks k n).progress = s.progress.setBlocks k n := rfl

/-! ### A turn of the core and a transaction -/

/-- What a turn of the core does to the sequencer and the block counters (R174, R175, R197-R199, R222). -/
def State.advance (s : State) : State :=
  match s.phase with
  | .idle | .done => s
  | .load => s.goTo .sched 16
  | .sched => if s.stepIdx = 63 then s.goTo .cinit 0 else s.goTo .sched (s.stepIdx + 1)
  | .cinit => s.goTo .round 0
  | .round => if s.stepIdx = 63 then s.goTo .feed 0 else s.goTo .round (s.stepIdx + 1)
  | .feed => (s.setBlocks (s.kblk + 1) s.nblk).goTo (if s.kblk + 1 < s.nblk then .load else .final) 0
  | .final => s.goTo .done 0

/-- R280: a turn of the core moves the progress by the progress alone. -/
theorem coreStep_progress (s : State) : (coreStep s).progress = s.progress.advance := by
  rw [coreStep_eq, State.advance, s.progress_phase, s.progress_stepIdx, s.progress_kblk, s.progress_nblk]
  cases hp : s.phase with
  | idle | done => rfl
  | load | cinit | feed | final => simp [after_uopLoad, after_uopCinit, after_uopFeed, after_uopFinal]
  | sched | round => simp [after_uopSched, after_uopRound, hp, apply_ite State.progress]

/-- R280: so does a transaction. -/
theorem after_bus_progress (c : Config) (t : BusTx) (s : State) :
    (after (decodeBus c t) s.progress).progress = (after (decodeBus c t) s).progress := by
  cases ht : t.write with
  | false =>
    obtain ⟨d, n, h⟩ := after_read c t s ht
    obtain ⟨d', n', h'⟩ := after_read c t s.progress ht
    rw [h, h']
    rfl
  | true =>
    simp only [after_write _ _ _ ht, after_command, apply_ite State.progress]
    rfl

/-! ### Steps and runs -/

theorem coreStep_progress_congr {s t : State} (h : t.progress = s.progress) :
    (coreStep t).progress = (coreStep s).progress := by
  rw [coreStep_progress, coreStep_progress, h]

theorem after_bus_progress_congr (c : Config) (x : BusTx) {s t : State} (h : t.progress = s.progress) :
    (after (decodeBus c x) t).progress = (after (decodeBus c x) s).progress := by
  rw [← after_bus_progress c x t, h, after_bus_progress]

theorem step_progress_congr {s t : State} (h : t.progress = s.progress) :
    ∃ u v, step s = .next u ∧ step t = .next v ∧ v.progress = u.progress := by
  obtain ⟨-, ⟨hcfg, hin⟩, -⟩ := progress_eq_iff.1 h
  have hset (is : List Input) : (t.setInputs is).progress = (s.setInputs is).progress :=
    congrArg (State.setInputs · is) h
  match hi : s.inputs with
  | [] => exact ⟨_, _, step_nil s hi, step_nil t (hin.trans hi), coreStep_progress_congr h⟩
  | .core :: is =>
    exact ⟨_, _, step_core s is hi, step_core t is (hin.trans hi), coreStep_progress_congr (hset is)⟩
  | .bus x :: is =>
    exact ⟨_, _, step_bus s x is hi, step_bus t x is (hin.trans hi),
      hcfg ▸ after_bus_progress_congr _ x (hset is)⟩
  | .reset :: is =>
    exact ⟨_, _, step_reset s is hi, step_reset t is (hin.trans hi), congrArg State.onReset (hset is)⟩

theorem run_progress_congr (k : Nat) {s t : State} (h : t.progress = s.progress) :
    ∃ u v, core.run k s = .next u ∧ core.run k t = .next v ∧ v.progress = u.progress := by
  induction k generalizing s t with
  | zero => exact ⟨s, t, rfl, rfl, h⟩
  | succ k ih =>
    obtain ⟨s', t', hs, ht, h'⟩ := step_progress_congr h
    obtain ⟨u, v, hu, hv, huv⟩ := ih h'
    exact ⟨u, v, (run_succ_of_step (M := core) k hs).trans hu,
      (run_succ_of_step (M := core) k ht).trans hv, huv⟩

theorem iterate_coreStep_progress_congr (k : Nat) {s t : State} (h : t.progress = s.progress) :
    (coreStep^[k] t).progress = (coreStep^[k] s).progress := by
  have hiterate (r : State) : (coreStep^[k] r).progress = State.advance^[k] r.progress :=
    Function.Semiconj.iterate_right coreStep_progress k r
  rw [hiterate, hiterate, h]

end Sys2Proof.Machine

/-! ## A run over any memory, through one over a written message

R280 carries what is known of runs over a written message (R79) to runs over bytes that nothing wrote. -/

namespace Sys2Proof.Machine

/-- Every length up to the capacity is that of a message in a canonical memory, here of zero bytes. -/
theorem exists_memory_of_length {cap : Nat} (n : Nat) (hn : n ≤ cap) :
    ∃ m : Memory, m.wf = true ∧ m.within cap = true ∧ ∀ i, i < n → m.get? i = some 0 := by
  induction n with
  | zero => exact ⟨[], rfl, rfl, nofun⟩
  | succ n ih =>
    obtain ⟨m, hwf, hwithin, hget⟩ := ih (Nat.le_of_succ_le hn)
    refine ⟨m.set n 0, m.wf_set n 0 hwf, m.within_set 0 hn hwithin, fun i hi => ?_⟩
    by_cases h : i = n
    · rw [h, m.get?_set_self]
    · rw [m.get?_set_ne 0 h, hget i (by omega)]

/-- A started run has the progress of one that meets the invariant and works on a written message: that of a
machine after reset, with a message of this length. -/
theorem exists_written_run {s : State} (hc : s.cfg.wf = true) (hl : s.msgLen.toNat ≤ s.cfg.cap) :
    ∃ (t : State) (msg : List Byte), s.started.progress = t.progress ∧ t.Inv
      ∧ msg.length = s.msgLen.toNat ∧ t.AtBlock msg 0 := by
  obtain ⟨m, hwf, hwithin, hget⟩ := exists_memory_of_length s.msgLen.toNat hl
  have hinv : ((s.setMem m).onReset.setMsgLen s.msgLen).Inv :=
    (State.inv_onReset (s := s.setMem m) hc hwf hwithin).setMsgLen rfl s.msgLen
  have hlen : (List.replicate s.msgLen.toNat (0 : Byte)).length = s.msgLen.toNat :=
    List.length_replicate
  refine ⟨((s.setMem m).onReset.setMsgLen s.msgLen).started, _, rfl, hinv.started hl, hlen,
    State.started_atBlock hlen.symm fun i hi => ?_⟩
  rw [hlen] at hi
  exact (hget i hi).trans (List.getElem?_replicate_of_lt hi).symm

theorem inv_iterate_coreStep {s : State} (h : s.Inv) (k : Nat) : (coreStep^[k] s).Inv :=
  Function.Iterate.rec State.Inv h (fun _ hr => hr.coreStep) k

/-- R26: `STEP` is at most 63 in every phase. -/
theorem State.Inv.stepIdx_le {s : State} (h : s.Inv) : s.stepIdx.toNat ≤ 63 := by
  have hstep := h.step_in_range
  unfold State.stepInRange at hstep
  split at hstep
  next => exact hstep.2
  next => exact hstep
  next => rw [hstep]; decide

/-- R278: a run is busy through its `115 N` turns. -/
theorem State.AtBlock.busy_iterate {s : State} {msg : List Byte} (h : s.AtBlock msg 0) {k : Nat}
    (hk : k ≤ 115 * blockCount msg.length) : (coreStep^[k] s).busy = true := by
  have hphase := (h.iterate _ le_rfl).phase
  rw [if_neg (Nat.lt_irrefl _)] at hphase
  refine busy_of_busy_iterate (n := 115 * blockCount msg.length - k) ?_
  rw [← Function.iterate_add_apply, Nat.sub_add_cancel hk, ← State.busy_of_phase, hphase]
  rfl

end Sys2Proof.Machine

/-! ## Events in front of further events -/

namespace Sys2Proof.Machine

theorem after_wrCmd (d : Word) (st : Strobe) (s : State) :
    after (.wrCmd d st) s = after (decodeCmd d) s := by
  rw [← exec_next_iff, ← execWrCmd_eq d st s, exec_eq_next]

theorem after_wrMsgLen_eq_ite (d : Word) (st : Strobe) (s : State) :
    after (.wrMsgLen d st) s = if s.busy then s.setFlag .busy else s.setMsgLen d := rfl

theorem after_wrMsg_eq_ite (o d : Word) (st : Strobe) (s : State) :
    after (.wrMsg o d st) s =
      if s.busy then s.setFlag .busy else s.setMem (storeLanes s.cfg.cap o.toNat d st s.mem) := rfl

theorem setInputs_ite (c : Prop) [Decidable c] (s u : State) (is : List Input) :
    (if c then s else u).setInputs is = if c then s.setInputs is else u.setInputs is :=
  apply_ite (State.setInputs · is) c s u

theorem after_command_setInputs (d : Word) (s : State) (is : List Input) :
    after (decodeCmd d) (s.setInputs is) = (after (decodeCmd d) s).setInputs is := by
  simp only [after_command, setInputs_ite]
  rfl

/-- R20: no instruction looks at the events to come. -/
theorem after_setInputs (i : Instr) (s : State) (is : List Input) :
    after i (s.setInputs is) = (after i s).setInputs is := by
  cases i with
  | wrCmd d st => rw [after_wrCmd, after_wrCmd, after_command_setInputs]
  | cmdNop => exact after_command_setInputs 0x00000000 s is
  | cmdStart => exact after_command_setInputs 0x00000001 s is
  | cmdClear => exact after_command_setInputs 0x00000002 s is
  | wrMsgLen => simp only [after_wrMsgLen_eq_ite, setInputs_ite]; rfl
  | wrMsg => simp only [after_wrMsg_eq_ite, setInputs_ite]; rfl
  | uopSched => simp only [after_uopSched, setInputs_ite]; rfl
  | uopRound => simp only [after_uopRound, setInputs_ite]; rfl
  | _ => rfl

theorem coreStep_setInputs (s : State) (is : List Input) :
    coreStep (s.setInputs is) = (coreStep s).setInputs is := by
  unfold coreStep
  rw [State.setInputs_phase]
  cases decodeUop s.phase.code with
  | none => rfl
  | some i => exact after_setInputs i s is

/-- The step of an event, whatever events wait behind it. -/
theorem step_of_event (i : Input) (s : State) :
    ∃ u : State, ∀ is, step (s.setInputs (i :: is)) = .next (u.setInputs is) := by
  cases i with
  | core =>
    refine ⟨coreStep s, fun is => ?_⟩
    rw [step_core _ is rfl, State.setInputs_setInputs, coreStep_setInputs]
  | bus t =>
    refine ⟨after (decodeBus s.cfg t) s, fun is => ?_⟩
    rw [step_bus _ t is rfl, State.setInputs_setInputs, after_setInputs, State.setInputs_cfg]
  | reset => exact ⟨s.onReset, fun is => step_reset _ is rfl⟩

/-- A run over events does the same in front of further events. -/
theorem run_events_append (is js : List Input) {s u : State}
    (h : core.run is.length (s.setInputs is) = .next u) :
    core.run is.length (s.setInputs (is ++ js)) = .next (u.setInputs js) := by
  induction is generalizing s with
  | nil => rw [← Host.Outcome.next.inj h]; rfl
  | cons i is ih =>
    obtain ⟨t, hstep⟩ := step_of_event i s
    have hrun := (run_succ_of_step (M := core) _ (hstep is)).symm.trans h
    exact (run_succ_of_step (M := core) _ (hstep (is ++ js))).trans (ih hrun)

theorem run_add {M : Host.Core} {s t : M.State} {j : Nat} (k : Nat) (h : M.run j s = .next t) :
    M.run (j + k) s = M.run k t := by
  induction j generalizing s with
  | zero => rw [Nat.zero_add, Host.Outcome.next.inj h]
  | succ j ih =>
    rw [Host.Core.run] at h
    split at h
    next u hu => rw [Nat.succ_add, run_succ_of_step _ hu, ih h]
    next => nomatch h
    next => nomatch h

/-- R126: SETLEN, accepted. -/
theorem run_setLen {s : State} (n : Word) (is : List Input) (k : Nat) (hc : s.cfg.wf = true)
    (hb : s.busy = false) :
    core.run (k + 1) (s.setInputs (Script.setLen n :: is)) = core.run k ((s.setInputs is).setMsgLen n) := by
  have hdec : decodeBus s.cfg (writeTx 0x00C n 0xF) = .wrMsgLen n 0xF :=
    Except.ok.inj (decode_writeTx (i := .rdMsgLen) hc rfl rfl n 0xF)
  have hstep := step_bus (s.setInputs (Script.setLen n :: is)) _ is rfl
  rw [State.setInputs_cfg, hdec, State.setInputs_setInputs, after_wrMsgLen (s := s.setInputs is) hb] at hstep
  exact run_succ_of_step (M := core) k hstep

end Sys2Proof.Machine

/-! ## The statements about hazards and the use sequence -/

namespace Sys2Proof.Machine

/-- Settles O52: the two states have one progress, and every step keeps that. -/
theorem progressIsDataIndependent : Obligations.ProgressIsDataIndependent := by
  intro k s t hseq hsur hlen
  obtain ⟨u, v, hu, hv, h⟩ := run_progress_congr k (progress_eq_iff.2 ⟨hseq, hsur, hlen⟩)
  obtain ⟨hseq', hsur', hlen'⟩ := progress_eq_iff.1 h
  exact ⟨u, v, hu, hv, hseq', hsur', hlen'⟩

/-- Settles O53: by R280 the run has the progress of one over a written message, which meets the invariant
and takes 115 turns for each block. -/
theorem runReachesDone : Obligations.RunReachesDone := by
  intro s hc hb hl hi
  obtain ⟨t, msg, hprogress, hinv, hlen, hblock⟩ := exists_written_run (s := s.setInputs []) hc hl
  rw [State.setInputs_msgLen] at hlen
  refine ⟨_, step_cmdStart hi hb hl, ?_⟩
  rw [← hlen]
  have hsame (k : Nat) := (progress_eq_iff.1 (iterate_coreStep_progress_congr k hprogress)).1
  have hnblk (k : Nat) : (coreStep^[k] t).nblk.toNat = blockCount msg.length :=
    (hblock.message.iterate k).blocks
  refine ⟨fun k hk => ⟨_, run_of_no_inputs k _ rfl, ?_⟩, _, run_of_no_inputs _ _ rfl, ?_⟩
  · obtain ⟨hphase, hstep, hkblk, -⟩ := hsame k
    have hle := BitVec.le_def.1 (inv_iterate_coreStep hinv k).kblk_le_nblk
    rw [← State.busy_of_phase, hphase, State.busy_of_phase, hstep, hkblk, ← hnblk k]
    exact ⟨hblock.busy_iterate hk, (inv_iterate_coreStep hinv k).stepIdx_le, hle⟩
  · obtain ⟨hphase, hstep, hkblk, hn⟩ := hsame (115 * blockCount msg.length + 1)
    have hend := inv_iterate_coreStep hinv (115 * blockCount msg.length + 1)
    obtain ⟨hdone, -⟩ := hblock.iterate_run
    have hstepIn := hend.step_in_range
    have hblocksIn := hend.blocks_in_range
    simp only [State.stepInRange, State.blocksInRange, hdone] at hstepIn hblocksIn
    rw [hphase, hstep, hkblk, hn]
    exact ⟨hdone, hstepIn, hblocksIn, hnblk _⟩

/-- Settles O56: LOADMSG stores the message, SETLEN its length, and the run that START begins ends with its
digest. -/
theorem useSequenceYieldsDigest : Obligations.UseSequenceYieldsDigest := by
  intro s msg hc hb hcap hi
  obtain ⟨-, -, hmax⟩ := (Config.wf_iff _).1 hc
  have hn : (BitVec.ofNat 32 msg.length).toNat = msg.length := Nat.mod_eq_of_lt (by omega)
  obtain ⟨l, hload, -, hbytes, -, ⟨hphase, -⟩, -, ⟨-, -, herr⟩, -, hcfg⟩ :=
    loadMsgStoresMessage (s.setInputs (Script.loadMsg msg)) msg hc hb hcap rfl
  have hload' := run_events_append _
    [Script.setLen (BitVec.ofNat 32 msg.length), Script.cmdStart] hload
  rw [← hi, State.setInputs_self] at hload'
  have hlb : l.busy = false := (congrArg Phase.busy hphase).trans hb
  obtain ⟨u, hrun, hdone, hdg, -, ⟨-, -, herr'⟩, -⟩ := runComputesDigest
    ((l.setInputs [Script.cmdStart]).setMsgLen (BitVec.ofNat 32 msg.length)) msg (hcfg ▸ hc) hlb
    (hcfg ▸ hcap) hn hbytes rfl
  refine ⟨u, ?_, hdone, herr'.trans herr, hdg, fun q => ?_⟩
  · have hsteps : s.inputs.length + (115 * blockCount msg.length + 1)
        = (Script.loadMsg msg).length + (1 + (115 * blockCount msg.length + 1) + 1) := by
      rw [hi, List.length_append, List.length_cons, List.length_singleton]
      omega
    rw [hsteps, run_add _ hload']
    exact (run_setLen _ _ _ (hcfg ▸ hc) hlb).trans hrun
  · obtain ⟨-, hread, -⟩ := exec_windows_of_done hdone 0 q 0
    exact ⟨_, hread, fun m => hdg ▸ lane_digestbWord u.dg q m⟩

end Sys2Proof.Machine

/-! ## The statement of the initial hash value -/

namespace Sys2Proof.Machine

/-- The first eight primes, from which the definition in R190 takes `IV`. -/
def ivPrimes : List Nat := [2, 3, 5, 7, 11, 13, 17, 19]

/-- R190: a table word is the low half of its prime's integer root, scaled so that the half is the first
32 bits of the fraction. -/
theorem iv_toNat_eq_sqrt_mod (j : Fin 8) :
    (iv[j]).toNat = (ivPrimes[j] * 2 ^ 64).sqrt % 2 ^ 32 := by
  revert j
  decide +kernel

/-- Settles O35: `Nat.sqrt` is the exact root, and the table holds it modulo 2^32. -/
theorem initialHashIsSquareRoots : Obligations.InitialHashIsSquareRoots := fun j =>
  ⟨ivPrimes[j], _, List.getElem?_eq_getElem j.isLt, Nat.sqrt_le' _, Nat.lt_succ_sqrt' _,
    iv_toNat_eq_sqrt_mod j⟩

end Sys2Proof.Machine
